-- ==== Sys2Proof/Word.lean ====
section
/-! DEFINITION. The word types of the TPE: the 32-bit register and command word, and the byte of the SBUS frame. -/

namespace Sys2Proof

/-- A 32-bit bus word: a register's contents, or a command word (R12, R80). -/
abbrev Word := BitVec 32

/-- A byte of the SBUS frame (R152). -/
abbrev Byte := BitVec 8

/-- A channel slot, a PPM slot or an SBUS channel: `P_NCH = 16` of each (R9). -/
abbrev SlotIndex := Fin 16

end Sys2Proof
end

