-- ==== Sys2Proof/Config.lean ====
section
/-! DEFINITION. What a build of the TPE fixes: the pulse limits (R7), and the open latency of the bus (R12, R75). -/

namespace Sys2Proof

/-- When `P_MIN = lo` and `P_MAX = hi` are a legal build (R7). -/
abbrev LegalLimits (lo hi : Nat) : Prop :=
  1 ≤ lo ∧ lo < hi ∧ hi ≤ 65535 ∧ (lo + hi) % 2 = 0

/-- The build parameters of the TPE. Only a legal build has a term (R7, V7; log 3). -/
structure Params where
  /-- `P_MIN`, the minimum pulse width in microseconds. -/
  pMin : Nat
  /-- `P_MAX`, the maximum pulse width in microseconds. -/
  pMax : Nat
  /-- The limits are legal. -/
  legal : LegalLimits pMin pMax
  deriving DecidableEq, Repr

/-- The default build: `P_MIN = 988`, `P_MAX = 2012` (R7). -/
def Params.default : Params := { pMin := 988, pMax := 2012, legal := by decide }

/-- FREE VALUE (log 7). The open parameter `P_LAT` of R12 and R75 may differ from one transaction to the next: the
`n`-th transaction opened at the ports takes `extraCycles n + 1` cycles, so `P_LAT` is at least 1 and nothing else
is known of it. -/
opaque Config.extraCycles : Nat → Nat

end Sys2Proof
end

