-- ==== Sys2Proof/Syntax.lean ====
section
/-! DEFINITION. The commands of the TPE (one constructor per row of the opcode table), the registers of its window, and
what the host can do: transactions, `rst` pulses, clock edges at the ports, and the pseudo-instructions. -/

namespace Sys2Proof

/-- The commands written to CMD (R83). No command can name a slot that does not exist (R82), so every term is well
formed. -/
inductive Instr where
  /-- NOP, R170. -/
  | nop
  /-- SHAPE on channel slot `c`, R116. -/
  | shape (c : SlotIndex)
  /-- SHAPE_ALL, R117. -/
  | shapeAll
  /-- ENC_PPM, R134. -/
  | encPpm
  /-- ENC_SBUS, R154. -/
  | encSbus
  /-- CYCLE, R171. -/
  | cycle
  /-- SOFT_RESET, R172. -/
  | softReset
  deriving DecidableEq, Repr

/-- The registers of the window, by name (10_state.md, register summary). -/
inductive Reg where
  | ctrl
  | status
  | cmd
  | ppmNch
  | ppmGap
  | ppmMinActive
  | ppmFrame
  | ppmSyncMin
  | ppmSync
  | ppmTotal
  | chIn (c : SlotIndex)
  | chCfg (c : SlotIndex)
  | chTrim (c : SlotIndex)
  | chPulse (c : SlotIndex)
  | ppmHigh (i : SlotIndex)
  | ppmLow (i : SlotIndex)
  | sbusVal (k : SlotIndex)
  | sbusFrame (w : Fin 7)
  deriving DecidableEq, Repr

/-- A bus transaction as a host operation names it (R61): a byte address, a size in bytes and, for a write, the
data. -/
inductive Txn where
  /-- `MemRead(addr, size)`. -/
  | read (addr size : Nat)
  /-- `MemWrite(addr, size, v)`. -/
  | write (addr size : Nat) (v : Word)
  deriving DecidableEq, Repr

/-- The levels on the input ports at one rising edge of `clk` (R75). -/
structure PortIn where
  rst : Bool
  sel : Bool
  we : Bool
  wa : BitVec 10
  wdata : Word
  deriving DecidableEq, Repr

/-- One thing the host does. -/
inductive HostOp where
  /-- One whole transaction (R67). -/
  | txn (t : Txn)
  /-- `rst` rises and returns to 0, with the transaction open at that moment, if any (R230, V8). -/
  | rst (opened : Option Txn)
  /-- One rising edge of `clk` with these levels on the input ports (R75). -/
  | edge (p : PortIn)
  deriving DecidableEq, Repr

/-- The host's assembly operations: the two transactions of R92 and the pseudo-instructions of R93. -/
inductive AsmOp where
  /-- `WR addr, value`. -/
  | wr (addr value : Nat)
  /-- `RD addr`. -/
  | rd (addr : Nat)
  | nop
  | shape (c : Nat)
  | shapeAll
  | encPpm
  | encSbus
  | cycle
  | softReset
  | clrErr
  /-- `CFG c, kind, inv, expo`. -/
  | cfg (c kind inv expo : Nat)
  /-- `IN c, value`. -/
  | input (c value : Nat)
  /-- `TRIM c, t`, with `t` signed microseconds. -/
  | trim (c : Nat) (t : Int)
  /-- `PULSE c, p`. -/
  | pulse (c p : Nat)
  deriving DecidableEq, Repr

end Sys2Proof
end

