-- ==== Sys2Proof/WellFormed.lean ====
section
/-! DEFINITION. The checks on what is given to the block from outside: builds (R7), transactions (R16, R61), host
operations, and the operands of the pseudo-instructions (R93). Commands need none: see `Instr`. -/

namespace Sys2Proof

/-- What the TPE bus cannot carry (R61, V6). -/
inductive TxnProblem where
  /-- A size other than 4 bytes. -/
  | badSize
  /-- A byte address with `addr[1:0]` not 0. -/
  | misaligned
  /-- A byte address at or above 0x1000 (R16). -/
  | outsideWindow
  deriving DecidableEq, Repr

/-- The byte address of a transaction. -/
def Txn.addr : Txn → Nat
  | .read a _ => a
  | .write a _ _ => a

/-- The size of a transaction in bytes. -/
def Txn.size : Txn → Nat
  | .read _ n => n
  | .write _ n _ => n

/-- Why the bus cannot carry a transaction, if it cannot (R16, R61). -/
def Txn.problem (t : Txn) : Option TxnProblem :=
  if t.size ≠ 4 then some .badSize
  else if t.addr % 4 ≠ 0 then some .misaligned
  else if 0x1000 ≤ t.addr then some .outsideWindow
  else none

/-- The bus can carry the transaction. -/
abbrev Txn.WellFormed (t : Txn) : Prop := t.problem = none

/-- The host operation gives the bus nothing it cannot carry. -/
def HostOp.wellFormed : HostOp → Bool
  | .txn t => t.problem.isNone
  | .rst none => true
  | .rst (some t) => t.problem.isNone
  | .edge _ => true

/-- The build with these limits, refused where they are not legal (R7, V7). -/
def Params.build? (lo hi : Nat) : Option Params :=
  if h : LegalLimits lo hi then some { pMin := lo, pMax := hi, legal := h } else none

/-- The operands of an assembly line are in their ranges (R92, R93). -/
def AsmOp.wellFormed : AsmOp → Bool
  | .wr addr value => decide (addr % 4 = 0 ∧ addr < 0x1000 ∧ value < 2 ^ 32)
  | .rd addr => decide (addr % 4 = 0 ∧ addr < 0x1000)
  | .shape c => decide (c < 16)
  | .cfg c kind inv expo => decide (c < 16 ∧ kind < 4 ∧ inv < 2 ∧ expo < 65536)
  | .input c value => decide (c < 16 ∧ value < 2 ^ 32)
  | .trim c t => decide (c < 16 ∧ -32768 ≤ t ∧ t ≤ 32767)
  | .pulse c p => decide (c < 16 ∧ p < 2 ^ 32)
  | .nop => true
  | .shapeAll => true
  | .encPpm => true
  | .encSbus => true
  | .cycle => true
  | .softReset => true
  | .clrErr => true

end Sys2Proof
end

