-- ==== Sys2Proof/Decode.lean ====
section
/-! DEFINITION. Command words: their fields (R81), the decoder (R84), the opcode map as rows (R83), and the encoder.
Total on every word; an illegal word is rejected by the name of the check that rejects it. -/

namespace Sys2Proof

/-- OP, bits [7:0] (R81). -/
def opField (v : Word) : BitVec 8 := v.extractLsb' 0 8

/-- CH, bits [11:8] (R81). -/
def chField (v : Word) : BitVec 4 := v.extractLsb' 8 4

/-- RSVD, bits [31:12] (R81). -/
def rsvdField (v : Word) : BitVec 20 := v.extractLsb' 12 20

/-- The slot a CH field names: `c = zext_4(v[11:8])` (R82). -/
def slotOfCh (b : BitVec 4) : SlotIndex := b.toFin

/-- The check of R84 that rejects an illegal word. Each of them raises ILLEGAL_CMD (R201); which one it was is not
recorded (log 11). -/
inductive Illegal where
  /-- RSVD is not 0. -/
  | reservedBits
  /-- OP is not an opcode of the map. -/
  | unknownOpcode
  /-- CH is not 0 in a command other than SHAPE. -/
  | channelNotZero
  deriving DecidableEq, Repr

/-- A command without a slot operand: its CH field must be 0 (R83). -/
def withoutSlot (c : SlotIndex) (i : Instr) : Except Illegal Instr :=
  if c = 0 then .ok i else .error .channelNotZero

/-- The decoder of CMD (R84). -/
def decode (v : Word) : Except Illegal Instr :=
  let c := slotOfCh (chField v)
  if rsvdField v ≠ 0 then .error .reservedBits
  else match (opField v).toNat with
    | 0x00 => withoutSlot c .nop
    | 0x01 => .ok (.shape c)
    | 0x02 => withoutSlot c .shapeAll
    | 0x03 => withoutSlot c .encPpm
    | 0x04 => withoutSlot c .encSbus
    | 0x05 => withoutSlot c .cycle
    | 0x0F => withoutSlot c .softReset
    | _ => .error .unknownOpcode

/-- A row of the opcode map: the words `w` with `w AND mask = match` (R83). -/
structure OpcodeRow where
  /-- The value of the fixed bits. -/
  pattern : Word
  /-- The fixed bits. -/
  mask : Word
  deriving DecidableEq, Repr

/-- A word matches a row (R83). -/
def OpcodeRow.matches (row : OpcodeRow) (w : Word) : Bool := w &&& row.mask == row.pattern

/-- The row of a command (R83, the match and mask table). -/
def Instr.row : Instr → OpcodeRow
  | .nop => { pattern := 0x00000000#32, mask := 0xFFFFFFFF#32 }
  | .shape _ => { pattern := 0x00000001#32, mask := 0xFFFFF0FF#32 }
  | .shapeAll => { pattern := 0x00000002#32, mask := 0xFFFFFFFF#32 }
  | .encPpm => { pattern := 0x00000003#32, mask := 0xFFFFFFFF#32 }
  | .encSbus => { pattern := 0x00000004#32, mask := 0xFFFFFFFF#32 }
  | .cycle => { pattern := 0x00000005#32, mask := 0xFFFFFFFF#32 }
  | .softReset => { pattern := 0x0000000F#32, mask := 0xFFFFFFFF#32 }

/-- The opcode map as rows, in the order of R83. -/
def opcodeRows : List OpcodeRow :=
  [Instr.nop.row, (Instr.shape 0).row, Instr.shapeAll.row, Instr.encPpm.row, Instr.encSbus.row, Instr.cycle.row,
    Instr.softReset.row]

/-- The opcode of a command (R83). -/
def opcodeOf : Instr → BitVec 8
  | .nop => 0x00#8
  | .shape _ => 0x01#8
  | .shapeAll => 0x02#8
  | .encPpm => 0x03#8
  | .encSbus => 0x04#8
  | .cycle => 0x05#8
  | .softReset => 0x0F#8

/-- The CH field of a command: its slot, and 0 where it has none (R82, R83). -/
def channelOf : Instr → BitVec 4
  | .shape c => BitVec.ofFin c
  | .nop => 0#4
  | .shapeAll => 0#4
  | .encPpm => 0#4
  | .encSbus => 0#4
  | .cycle => 0#4
  | .softReset => 0#4

/-- The command word of a command: RSVD = 0, CH, OP (R81). -/
def encode (i : Instr) : Word := 0#20 ++ channelOf i ++ opcodeOf i

/-- What the decoder reads from the command word whose bits are `w`, numbered as the opcode table numbers them. A
command word is a whole 32-bit bus word, in which no byte order is visible (R66, R80). -/
def decodeTableWord (nbits w : Nat) : Option Instr :=
  match decode (BitVec.ofNat 32 (w % 2 ^ nbits)) with
  | .ok i => some i
  | .error _ => none

end Sys2Proof
end

