-- ==== Sys2Proof/Machine/Numeric.lean ====
section
/-! DEFINITION. The integer helpers of R14, the field readings of R13, and the neutral pulse width of R8. All arithmetic
is on mathematical integers. -/

namespace Sys2Proof.Machine

/-- `sign(x)` (R14). -/
def sign (x : Int) : Int := if 0 < x then 1 else if x = 0 then 0 else -1

/-- `|x|` (R14). -/
def absolute (x : Int) : Int := (x.natAbs : Int)

/-- `fdiv(n, d)` for `d > 0`: the greatest integer `q` with `q * d <= n` (R14). -/
def fdiv (n d : Int) : Int := n / d

/-- `clamp(x, lo, hi)` for `lo <= hi` (R14). -/
def clamp (x lo hi : Int) : Int := max lo (min hi x)

/-- `rnd_haz(n, d)` for `d > 0`: nearest integer, ties away from zero (R14). -/
def rndHaz (n d : Int) : Int := sign n * fdiv (2 * absolute n + d) (2 * d)

/-- `rnd_hu(n, d)` for `d > 0`: nearest integer, ties upward (R14). -/
def rndHu (n d : Int) : Int := fdiv (2 * n + d) (2 * d)

/-- `sext_N(v)`: the bits as a two's complement integer (R13). -/
def sext {n : Nat} (v : BitVec n) : Int := v.toInt

/-- `zext_N(v)`: the bits as an unsigned integer (R13). -/
def zext {n : Nat} (v : BitVec n) : Int := (v.toNat : Int)

/-- The `n`-bit field of a word whose lowest bit is `lo` (R13). -/
def fieldOf (n lo : Nat) (v : Word) : BitVec n := v.extractLsb' lo n

/-- An integer written to an `n`-bit field: its value modulo `2^n` (R13). -/
def toField (n : Nat) (v : Int) : BitVec n := BitVec.ofInt n v

/-- `P_MID`, the neutral pulse width (R8). -/
def pMid (p : Params) : Nat := (p.pMin + p.pMax) / 2

end Sys2Proof.Machine
end

