-- ==== Sys2Proof/Machine/State.lean ====
section
/-! DEFINITION. The state of the TPE: its registers (10_state.md), its build parameters, and the boundary with the host;
the reasons a step can stop; and the state after reset (R230). -/

namespace Sys2Proof.Machine

/-- The TPE raises no fault: it never traps and never hangs (R200, 93_implementation_defined.md), so this type has no
constructor and no step can answer one (log 10). -/
inductive Fault where
  deriving DecidableEq, Repr

/-- Why the model declines a host operation. All of them are safe: the block itself refuses nothing the bus can carry
(R245), and each names something the spec says the bus or the host does not do. -/
inductive Refusal where
  /-- An instruction without a meaning. No arm of `exec` raises it: every command is modelled. -/
  | notModelled (mnemonic : String)
  /-- Raised by a transaction the bus cannot carry: wrong size, misaligned, outside the window (R61, V6; log 5). -/
  | notOnBus (why : TxnProblem)
  /-- Raised by a whole transaction issued while another is open at the ports: transactions never overlap (R67, R208;
  log 8). -/
  | overlapping
  /-- Raised by a clock edge at which the inputs of the open transaction are not held (R75; log 8). -/
  | inputsNotHeld
  deriving DecidableEq, Repr

/-- One channel slot: CH_IN, CH_CFG, CH_TRIM and CH_PULSE (R32 to R37). -/
structure Slot where
  /-- CH_IN.VALUE, R32. -/
  value : BitVec 16
  /-- CH_CFG.KIND, R33. -/
  kind : BitVec 2
  /-- CH_CFG.INVERT, R34. -/
  invert : BitVec 1
  /-- CH_CFG.EXPO, R35. -/
  expo : BitVec 16
  /-- CH_TRIM.TRIM, R36. -/
  trim : BitVec 16
  /-- CH_PULSE.PULSE, R37. -/
  pulse : BitVec 16
  deriving DecidableEq, Repr

/-- The registers of the TPE: its whole architectural state (R20). Reserved bits hold nothing (R42). -/
structure Regs where
  /-- CTRL.MODE, R22. -/
  mode : BitVec 1
  /-- STATUS.ERR, R23. -/
  err : BitVec 1
  /-- STATUS.ERR_CODE, R23. -/
  errCode : BitVec 4
  /-- STATUS.PPM_VALID, R23. -/
  ppmValid : BitVec 1
  /-- STATUS.SBUS_VALID, R23. -/
  sbusValid : BitVec 1
  /-- PPM_NCH.N, R25. -/
  nch : BitVec 5
  /-- PPM_GAP.GAP, R26. -/
  gap : BitVec 16
  /-- PPM_MIN_ACTIVE.MINA, R27. -/
  minActive : BitVec 16
  /-- PPM_FRAME.FRAME, R28. -/
  frame : BitVec 16
  /-- PPM_SYNC_MIN.SMIN, R29. -/
  syncMin : BitVec 16
  /-- PPM_SYNC.SYNC, R30. -/
  sync : BitVec 16
  /-- PPM_TOTAL.TOTAL, R31. -/
  total : BitVec 22
  /-- The channel slots, R32 to R37. -/
  slots : Vector Slot 16
  /-- PPM_HIGH[i].HIGH, R38. -/
  high : Vector (BitVec 16) 16
  /-- PPM_LOW[i].LOW, R39. -/
  low : Vector (BitVec 16) 16
  /-- SBUS_VAL[k].VAL, R40. -/
  sbusVal : Vector (BitVec 11) 16
  /-- SBUS_FRAME[w], R41. -/
  sbusFrame : Vector Word 7
  deriving DecidableEq, Repr

/-- A channel slot after reset: ABSENT, with the neutral pulse (R32 to R37, R230). -/
def Slot.reset (p : Params) : Slot where
  value := 0
  kind := 0
  invert := 0
  expo := 0
  trim := 0
  pulse := BitVec.ofNat 16 (pMid p)

/-- Every register at its reset value: what the `rst` input and SOFT_RESET set (R172, R230). -/
def Regs.reset (p : Params) : Regs where
  mode := 0
  err := 0
  errCode := 0
  ppmValid := 0
  sbusValid := 0
  nch := 8
  gap := 300
  minActive := 100
  frame := 22500
  syncMin := 8000
  sync := 0
  total := 0
  slots := Vector.replicate 16 (Slot.reset p)
  high := Vector.replicate 16 0
  low := Vector.replicate 16 0
  sbusVal := Vector.replicate 16 0
  sbusFrame := Vector.replicate 7 0

/-- A transaction open at the ports (R75): the levels it was opened with, and how many edges still come before the one
that closes it (log 7). -/
structure OpenTxn where
  we : Bool
  wa : BitVec 10
  wdata : Word
  left : Nat
  deriving DecidableEq, Repr

/-- The block's side of the ports (R75). The MODEL's own state: no register holds any of it (log 7). -/
structure Port where
  /-- The open transaction. -/
  opened : Option OpenTxn
  /-- How many transactions have been opened at the ports: the argument of the free value `P_LAT`. -/
  count : Nat
  /-- Output `ready` as sampled at the last clock edge. -/
  ready : Bool
  /-- Output `rdata` as sampled at the last clock edge, where R75 makes it valid (log 9). -/
  rdata : Option Word
  deriving DecidableEq, Repr

/-- No transaction open, and the outputs saying so. -/
def Port.idle (count : Nat) : Port where
  opened := none
  count := count
  ready := false
  rdata := none

/-- The state of the model. -/
structure State where
  /-- The build parameters; no step changes them (R7, R172). -/
  params : Params
  /-- The registers (R20). -/
  regs : Regs
  /-- What the host does next, the next first (R6, R68, R244; log 1). -/
  pending : List HostOp
  /-- The values the host's reads have returned, the oldest first (R244; log 1). -/
  returned : List Word
  /-- The ports (R75). -/
  port : Port
  deriving DecidableEq, Repr

/-- The state after reset of a build. -/
def State.resetOf (p : Params) : State where
  params := p
  regs := Regs.reset p
  pending := []
  returned := []
  port := Port.idle 0

/-- The machine right after reset, at the default parameters (R7, R230; log 3). The host has issued nothing (R232). -/
def State.reset : State := State.resetOf Params.default

end Sys2Proof.Machine
end

