-- ==== Sys2Proof/Machine/Flags.lean ====
section
/-! DEFINITION. STATUS, the TPE's only flags (R23): its word, the error codes (R203), and the settings of each flag. -/

namespace Sys2Proof.Machine

/-- The errors a command can raise (R203). -/
inductive ErrorCause where
  /-- ILLEGAL_CMD, R201. -/
  | illegalCmd
  /-- BAD_NCH, R202. -/
  | badNch
  deriving DecidableEq, Repr

/-- The code of an error in STATUS.ERR_CODE (R203). -/
def errorCode : ErrorCause → BitVec 4
  | .illegalCmd => 1#4
  | .badNch => 2#4

/-- The STATUS word: SBUS_VALID [9], PPM_VALID [8], ERR_CODE [7:4], ERR [0], every other bit reserved (R23). -/
def statusWord (g : Regs) : Word := 0#22 ++ g.sbusValid ++ g.ppmValid ++ g.errCode ++ 0#3 ++ g.err

/-- ERR and ERR_CODE as `raise Error` leaves them (R204, R209). -/
def recordError (e : ErrorCause) (g : Regs) : Regs := { g with err := 1, errCode := errorCode e }

/-- ERR and ERR_CODE cleared (R207). -/
def forgetError (g : Regs) : Regs := { g with err := 0, errCode := 0 }

/-- STATUS.PPM_VALID <- 1 (R136). -/
def markPpmValid (g : Regs) : Regs := { g with ppmValid := 1 }

/-- STATUS.PPM_VALID <- 0 (R136). -/
def markPpmInvalid (g : Regs) : Regs := { g with ppmValid := 0 }

/-- STATUS.SBUS_VALID <- 1 (R158). -/
def markSbusValid (g : Regs) : Regs := { g with sbusValid := 1 }

end Sys2Proof.Machine
end

