-- ==== Sys2Proof/Machine/Operands.lean ====
section
/-! DEFINITION. The operand formats of the channel registers (R88 to R90, R100 to R103) and the addresses of the
registers (R62, R94). -/

namespace Sys2Proof.Machine

/-- The source type CH_CFG.KIND names (R33). -/
inductive Kind where
  | absent
  | axis
  | button
  | hat
  deriving DecidableEq, Repr

/-- KIND 0 ABSENT, 1 AXIS, 2 BUTTON, 3 HAT (R33, R88). -/
def kindOf (k : BitVec 2) : Kind :=
  match k.toNat with
  | 0 => .absent
  | 1 => .axis
  | 2 => .button
  | _ => .hat

/-- Axis decode: Q2.14, saturated to -1.0 .. +1.0 (R101). -/
def axisRaw (value : BitVec 16) : Int := clamp (sext value) (-16384) 16384

/-- Button decode: pressed is +1.0, released is -1.0; bits [15:1] are ignored (R102). -/
def buttonRaw (value : BitVec 16) : Int := if value.getLsbD 0 then 16384 else -16384

/-- Hat decode: -1.0, 0 or +1.0 by the sign (R103). -/
def hatRaw (value : BitVec 16) : Int := 16384 * sign (sext value)

/-- The trim of a slot in signed microseconds (R36, R90). -/
def trimOf (c : Slot) : Int := sext c.trim

/-- The expo of a slot as `E = zext_16(EXPO)`; the expo itself is `E / 65536` (R35, R105). -/
def expoOf (c : Slot) : Int := zext c.expo

/-- The pulse of a slot in unsigned microseconds (R37, R90). -/
def pulseOf (c : Slot) : Int := zext c.pulse

/-- The CH_CFG word: EXPO, thirteen reserved bits, INVERT, KIND (R89). -/
def cfgWord (c : Slot) : Word := c.expo ++ 0#13 ++ c.invert ++ c.kind

/-- The byte address of a register (10_state.md register summary, R94). -/
def regAddr : Reg → Nat
  | .ctrl => 0x000
  | .status => 0x004
  | .cmd => 0x008
  | .ppmNch => 0x00C
  | .ppmGap => 0x010
  | .ppmMinActive => 0x014
  | .ppmFrame => 0x018
  | .ppmSyncMin => 0x01C
  | .ppmSync => 0x020
  | .ppmTotal => 0x024
  | .chIn c => 0x100 + 16 * c.val
  | .chCfg c => 0x104 + 16 * c.val
  | .chTrim c => 0x108 + 16 * c.val
  | .chPulse c => 0x10C + 16 * c.val
  | .ppmHigh i => 0x200 + 8 * i.val
  | .ppmLow i => 0x204 + 8 * i.val
  | .sbusVal k => 0x300 + 4 * k.val
  | .sbusFrame w => 0x340 + 4 * w.val

/-- The slot with this number. -/
def slotAt (n : Nat) : SlotIndex := Fin.ofNat 16 n

/-- The global register at a byte address below 0x100, if one stands there (R62). -/
def globalAt (a : Nat) : Option Reg :=
  match a with
  | 0x000 => some .ctrl
  | 0x004 => some .status
  | 0x008 => some .cmd
  | 0x00C => some .ppmNch
  | 0x010 => some .ppmGap
  | 0x014 => some .ppmMinActive
  | 0x018 => some .ppmFrame
  | 0x01C => some .ppmSyncMin
  | 0x020 => some .ppmSync
  | 0x024 => some .ppmTotal
  | _ => none

/-- The channel register at an offset inside a slot (R62, R94). -/
def channelAt (c : SlotIndex) (off : Nat) : Option Reg :=
  match off with
  | 0x0 => some (.chIn c)
  | 0x4 => some (.chCfg c)
  | 0x8 => some (.chTrim c)
  | 0xC => some (.chPulse c)
  | _ => none

/-- The PPM output register at an offset inside a slot (R62, R94). -/
def ppmAt (i : SlotIndex) (off : Nat) : Option Reg :=
  match off with
  | 0x0 => some (.ppmHigh i)
  | 0x4 => some (.ppmLow i)
  | _ => none

/-- The register at a byte address; `none` is a reserved address (R62, R63). -/
def regAt (a : Nat) : Option Reg :=
  if a % 4 ≠ 0 then none
  else if a < 0x100 then globalAt a
  else if a < 0x200 then channelAt (slotAt ((a - 0x100) / 16)) (a % 16)
  else if a < 0x280 then ppmAt (slotAt ((a - 0x200) / 8)) (a % 8)
  else if a < 0x300 then none
  else if a < 0x340 then some (.sbusVal (slotAt ((a - 0x300) / 4)))
  else if a < 0x35C then some (.sbusFrame (Fin.ofNat 7 ((a - 0x340) / 4)))
  else none

end Sys2Proof.Machine
end

