-- ==== Sys2Proof/Machine/Ops.lean ====
section
/-! DEFINITION. The shared operations: reading and writing a register and an address of the window (R63 to R65), writing
a channel slot, recording an error (the TPE's whole exception entry, R204) and clearing it (its only return, R207). -/

namespace Sys2Proof.Machine

/-- `raise Error(code)`: it sets ERR and ERR_CODE and nothing else; no control is transferred (R200, R204). -/
def raiseError (e : ErrorCause) (g : Regs) : Regs := recordError e g

/-- The TPE's only "return" from an error: ERR and ERR_CODE become 0, and nothing else is restored (R207). -/
def clearError (g : Regs) : Regs := forgetError g

/-- The registers of the machine replaced. -/
def State.withRegs (s : State) (g : Regs) : State := { s with regs := g }

/-- Channel slot `c` replaced. -/
def setSlot (c : SlotIndex) (x : Slot) (g : Regs) : Regs := { g with slots := g.slots.set c.val x }

/-- `CH_PULSE[c].PULSE <- v` (R37). -/
def setPulse (c : SlotIndex) (v : BitVec 16) (g : Regs) : Regs :=
  setSlot c { g.slots[c] with pulse := v } g

/-- The word a register reads as: its fields at their bits, 0 in every reserved bit; CMD reads 0 (R42, R64). -/
def readReg (r : Reg) (g : Regs) : Word :=
  match r with
  | .ctrl => g.mode.setWidth 32
  | .status => statusWord g
  | .cmd => 0#32
  | .ppmNch => g.nch.setWidth 32
  | .ppmGap => g.gap.setWidth 32
  | .ppmMinActive => g.minActive.setWidth 32
  | .ppmFrame => g.frame.setWidth 32
  | .ppmSyncMin => g.syncMin.setWidth 32
  | .ppmSync => g.sync.setWidth 32
  | .ppmTotal => g.total.setWidth 32
  | .chIn c => g.slots[c].value.setWidth 32
  | .chCfg c => cfgWord g.slots[c]
  | .chTrim c => g.slots[c].trim.setWidth 32
  | .chPulse c => g.slots[c].pulse.setWidth 32
  | .ppmHigh i => g.high[i].setWidth 32
  | .ppmLow i => g.low[i].setWidth 32
  | .sbusVal k => g.sbusVal[k].setWidth 32
  | .sbusFrame w => g.sbusFrame[w]

/-- The fields of a register as a write leaves them, by access type: RW stored, W1C of STATUS.ERR, RO and reserved
unchanged (R42, R65). The command a write to CMD issues is not here (R24): CMD holds no state. -/
def writeReg (r : Reg) (v : Word) (g : Regs) : Regs :=
  match r with
  | .ctrl => { g with mode := fieldOf 1 0 v }
  | .status => if v.getLsbD 0 then clearError g else g
  | .cmd => g
  | .ppmNch => { g with nch := fieldOf 5 0 v }
  | .ppmGap => { g with gap := fieldOf 16 0 v }
  | .ppmMinActive => { g with minActive := fieldOf 16 0 v }
  | .ppmFrame => { g with frame := fieldOf 16 0 v }
  | .ppmSyncMin => { g with syncMin := fieldOf 16 0 v }
  | .ppmSync => g
  | .ppmTotal => g
  | .chIn c => setSlot c { g.slots[c] with value := fieldOf 16 0 v } g
  | .chCfg c => setSlot c { g.slots[c] with kind := fieldOf 2 0 v, invert := fieldOf 1 2 v, expo := fieldOf 16 16 v } g
  | .chTrim c => setSlot c { g.slots[c] with trim := fieldOf 16 0 v } g
  | .chPulse c => setPulse c (fieldOf 16 0 v) g
  | .ppmHigh _ => g
  | .ppmLow _ => g
  | .sbusVal _ => g
  | .sbusFrame _ => g

/-- The word an address of the window reads as; a reserved address reads 0 (R63, R64). -/
def readAddr (a : Nat) (g : Regs) : Word :=
  match regAt a with
  | some r => readReg r g
  | none => 0#32

/-- The registers as a write to an address leaves them; a write to a reserved address changes nothing (R63, R65). -/
def writeAddr (a : Nat) (v : Word) (g : Regs) : Regs :=
  match regAt a with
  | some r => writeReg r v g
  | none => g

/-- The byte address of CMD (R24). -/
def cmdAddr : Nat := regAddr .cmd

end Sys2Proof.Machine
end

