-- ==== Sys2Proof/Machine/Curve.lean ====
section
/-! DEFINITION. The curve engine, stage by stage (R100 to R109), and the commands SHAPE and SHAPE_ALL (R116, R117). -/

namespace Sys2Proof.Machine

/-- Stage 2: inversion, before shaping (R104). -/
def inverted (invert : BitVec 1) (r0 : Int) : Int := if invert = 1 then -r0 else r0

/-- Stage 3: the expo blend, exact in Q2.58 (R105). -/
def adjusted (e r : Int) : Int := (65536 - e) * r * 2 ^ 28 + e * r ^ 3

/-- Stage 4: linear scale to microseconds, with the curve's one rounding (R106). -/
def scaled (p : Params) (a : Int) : Int :=
  (pMid p : Int) + rndHaz (((p.pMax : Int) - (p.pMin : Int)) * a) (2 ^ 59)

/-- Stages 2 to 6 on a decoded raw value: inversion, expo, scale, trim, saturation (R104 to R108). -/
def shapeRaw (p : Params) (c : Slot) (r0 : Int) : Int :=
  let a := adjusted (expoOf c) (inverted c.invert r0)
  clamp (scaled p a + trimOf c) (p.pMin : Int) (p.pMax : Int)

/-- `Shape(c)` (R109). It reads this slot and the parameters only. -/
def shape (p : Params) (c : Slot) : Int :=
  match kindOf c.kind with
  | .absent => (pMid p : Int)
  | .axis => shapeRaw p c (axisRaw c.value)
  | .button => shapeRaw p c (buttonRaw c.value)
  | .hat => shapeRaw p c (hatRaw c.value)

/-- `CH_PULSE[c].PULSE <- Shape(c)` (R116). -/
def shapeSlot (p : Params) (c : SlotIndex) (g : Regs) : Regs :=
  setPulse c (toField 16 (shape p g.slots[c])) g

/-- SHAPE on the listed slots, in order. -/
def shapeSlots (p : Params) (cs : List SlotIndex) (g : Regs) : Regs :=
  cs.foldl (fun g c => shapeSlot p c g) g

/-- `for c in 0..15: CH_PULSE[c].PULSE <- Shape(c)` (R117). -/
def shapeEvery (p : Params) (g : Regs) : Regs := shapeSlots p (List.finRange 16) g

/-- SHAPE (R116). -/
def execShape (c : SlotIndex) (s : State) : Host.Outcome State Fault Refusal :=
  .next (s.withRegs (shapeSlot s.params c s.regs))

/-- SHAPE_ALL (R117). -/
def execShapeAll (s : State) : Host.Outcome State Fault Refusal :=
  .next (s.withRegs (shapeEvery s.params s.regs))

end Sys2Proof.Machine
end

