-- ==== Sys2Proof/Machine/Ppm.lean ====
section
/-! DEFINITION. The PPM encoder: the pairs, the channel time and the sync gap (R130 to R135), the command ENC_PPM
(R134), and the waveform its registers stand for (R137). -/

namespace Sys2Proof.Machine

/-- The number of slots ENC_PPM encodes, as the register holds it (R25). -/
def nchOf (g : Regs) : Nat := g.nch.toNat

/-- `N` is legal for ENC_PPM (R25, R134). -/
abbrev NchLegal (g : Regs) : Prop := 1 ≤ nchOf g ∧ nchOf g ≤ 16

/-- `high_i`: the active time of slot `i` (R130). -/
def activeTime (g : Regs) (i : SlotIndex) : Int :=
  max (pulseOf g.slots[i] - zext g.gap) (zext g.minActive)

/-- `total`: the channel time of the slots below `N` (R132). -/
def channelTime (g : Regs) : Int :=
  ((List.finRange 16).map fun i => if i.val < nchOf g then activeTime g i + zext g.gap else 0).sum

/-- `sync`: the rest of the nominal frame, never below the floor (R133). -/
def syncGap (g : Regs) : Int := max (zext g.frame - channelTime g) (zext g.syncMin)

/-- PPM_HIGH[i] as ENC_PPM writes it (R130, R135). -/
def highField (g : Regs) (i : SlotIndex) : BitVec 16 :=
  if i.val < nchOf g then toField 16 (activeTime g i) else 0

/-- PPM_LOW[i] as ENC_PPM writes it (R131, R135). -/
def lowField (g : Regs) (i : SlotIndex) : BitVec 16 := if i.val < nchOf g then g.gap else 0

/-- The PPM output registers as a successful ENC_PPM writes them (R134). -/
def writePpmFrame (g : Regs) : Regs :=
  { g with
    high := Vector.ofFn (highField g)
    low := Vector.ofFn (lowField g)
    total := toField 22 (channelTime g)
    sync := toField 16 (syncGap g) }

/-- The registers after ENC_PPM: the frame and PPM_VALID, or BAD_NCH before any output register is written (R134,
R202). -/
def encodePpm (g : Regs) : Regs :=
  if NchLegal g then markPpmValid (writePpmFrame g) else raiseError .badNch (markPpmInvalid g)

/-- ENC_PPM (R134). -/
def execEncPpm (s : State) : Host.Outcome State Fault Refusal := .next (s.withRegs (encodePpm s.regs))

/-- A level of the PPM line and how long it lasts, in microseconds (R137). -/
inductive LineSpan where
  | high (us : Nat)
  | low (us : Nat)
  deriving DecidableEq, Repr

/-- How long a span lasts. -/
def LineSpan.us : LineSpan → Nat
  | .high n => n
  | .low n => n

/-- The waveform the PPM registers stand for when the frame in them was made with `n` slots (R137). The Output Transport
produces it; the TPE does not (R5). -/
def ppmWaveform (n : Nat) (g : Regs) : List LineSpan :=
  ((List.finRange 16).filter fun i => i.val < n).flatMap
    (fun i => [LineSpan.high g.high[i].toNat, LineSpan.low g.low[i].toNat]) ++ [LineSpan.low g.sync.toNat]

end Sys2Proof.Machine
end

