-- ==== Sys2Proof/Machine/Sbus.lean ====
section
/-! DEFINITION. The SBUS encoder: the pulse map (R150), the bit packing (R151), the 25-byte frame and its words (R152,
R155), and the command ENC_SBUS (R154). -/

namespace Sys2Proof.Machine

/-- `SBUS_LO` and `SBUS_HI` (R10). -/
def sbusLo : Int := 172

/-- See `sbusLo`. -/
def sbusHi : Int := 1811

/-- `SbusMap(p)`: a pulse to its 11-bit value (R150). -/
def sbusMap (p : Params) (pulse : Int) : Int :=
  let n := (pulse - (p.pMin : Int)) * (sbusHi - sbusLo)
  let d := (p.pMax : Int) - (p.pMin : Int)
  clamp (sbusLo + rndHu n d) sbusLo sbusHi

/-- SBUS_VAL[k] as ENC_SBUS writes it (R154). -/
def sbusValue (p : Params) (g : Regs) (k : SlotIndex) : BitVec 11 := toField 11 (sbusMap p (pulseOf g.slots[k]))

/-- `X`: the 176-bit stream, channel 0 first, least significant bit first (R151). -/
def packStream (vals : Vector (BitVec 11) 16) : Nat :=
  ((List.finRange 16).map fun k => vals[k].toNat * 2 ^ (11 * k.val)).sum

/-- Data byte `m` of the stream: `(X >> (8*m)) & 0xFF` (R151). -/
def dataByte (x m : Nat) : Byte := BitVec.ofNat 8 (x >>> (8 * m))

/-- Frame byte `B[j]` of the stream `x`: header, data, flags, end marker, padding (R152, R153, R155). -/
def frameByte (x j : Nat) : Byte :=
  if j = 0 then 0x0F#8
  else if j ≤ 22 then dataByte x (j - 1)
  else 0x00#8

/-- Word `w` of the frame, little-endian: `{B[4w+3], B[4w+2], B[4w+1], B[4w]}` (R154, R155). -/
def frameWord (x w : Nat) : Word :=
  frameByte x (4 * w + 3) ++ frameByte x (4 * w + 2) ++ frameByte x (4 * w + 1) ++ frameByte x (4 * w)

/-- The SBUS_FRAME words of sixteen values (R151, R152, R155). -/
def frameOf (vals : Vector (BitVec 11) 16) : Vector Word 7 :=
  Vector.ofFn fun w => frameWord (packStream vals) w.val

/-- The SBUS output registers as ENC_SBUS writes them (R154). -/
def writeSbusFrame (p : Params) (g : Regs) : Regs :=
  { g with
    sbusVal := Vector.ofFn (sbusValue p g)
    sbusFrame := frameOf (Vector.ofFn (sbusValue p g)) }

/-- The registers after ENC_SBUS (R154, R158). -/
def encodeSbus (p : Params) (g : Regs) : Regs := markSbusValid (writeSbusFrame p g)

/-- ENC_SBUS (R154). -/
def execEncSbus (s : State) : Host.Outcome State Fault Refusal :=
  .next (s.withRegs (encodeSbus s.params s.regs))

/-- Byte `j mod 4` of a word, byte 0 least significant: where frame byte `j` lies in SBUS_FRAME (R41, R66). -/
def wordByte (v : Word) (j : Nat) : Byte := v.extractLsb' (8 * (j % 4)) 8

/-- The frame bytes the SBUS_FRAME registers hold, in the order they are sent: `B[0]` to `B[24]` (R41, R74, R157). -/
def sbusBytes (g : Regs) : List Byte :=
  (List.range 25).map fun j => wordByte g.sbusFrame[Fin.ofNat 7 (j / 4)] j

end Sys2Proof.Machine
end

