-- ==== Sys2Proof/Machine/Control.lean ====
section
/-! DEFINITION. The control commands NOP, CYCLE and SOFT_RESET (R170 to R172). -/

namespace Sys2Proof.Machine

/-- NOP: no state changes (R170). -/
def execNop (s : State) : Host.Outcome State Fault Refusal := .next s

/-- The encoder CTRL.MODE selects: 0 PPM, 1 SBUS (R22). -/
def encodeSelected (p : Params) (g : Regs) : Regs := if g.mode = 0 then encodePpm g else encodeSbus p g

/-- CYCLE: SHAPE_ALL, then the selected encoder (R171). -/
def execCycle (s : State) : Host.Outcome State Fault Refusal :=
  .next (s.withRegs (encodeSelected s.params (shapeEvery s.params s.regs)))

/-- SOFT_RESET: every register to its reset value; the parameters are no registers (R172). -/
def execSoftReset (s : State) : Host.Outcome State Fault Refusal := .next (s.withRegs (Regs.reset s.params))

end Sys2Proof.Machine
end

