-- ==== Sys2Proof/Machine/Dispatch.lean ====
section
/-! DEFINITION. The dispatch of R84: one arm per command, each one call of its meaning. -/

namespace Sys2Proof.Machine

def exec (i : Instr) (s : State) : Host.Outcome State Fault Refusal :=
  match i with
  | .nop => Sys2Proof.Machine.execNop s
  | .shape c => Sys2Proof.Machine.execShape c s
  | .shapeAll => Sys2Proof.Machine.execShapeAll s
  | .encPpm => Sys2Proof.Machine.execEncPpm s
  | .encSbus => Sys2Proof.Machine.execEncSbus s
  | .cycle => Sys2Proof.Machine.execCycle s
  | .softReset => Sys2Proof.Machine.execSoftReset s

end Sys2Proof.Machine
end

