-- ==== Sys2Proof/Machine/Bus.lean ====
section
/-! DEFINITION. What the host does to the block: whole transactions (R61 to R67), the command a write to CMD issues
(R84), the `rst` input (R230), and one clock edge at the ports (R75). -/

namespace Sys2Proof.Machine

/-- `Execute(v)`: the command a write to CMD runs, or ILLEGAL_CMD and nothing else (R84, R201). -/
def execute (v : Word) (s : State) : Host.Outcome State Fault Refusal :=
  match decode v with
  | .ok i => exec i s
  | .error _ => .next (s.withRegs (raiseError .illegalCmd s.regs))

/-- A read returned `v` to the host (R244). -/
def State.logRead (s : State) (v : Word) : State := { s with returned := s.returned ++ [v] }

/-- `MemRead(addr, 4)`: the value goes to the host, and no register changes (R64). -/
def memRead (a : Nat) (s : State) : Host.Outcome State Fault Refusal := .next (s.logRead (readAddr a s.regs))

/-- `MemWrite(addr, 4, v)`: the fields stored and, at CMD, the command run to completion (R65, R67). -/
def memWrite (a : Nat) (v : Word) (s : State) : Host.Outcome State Fault Refusal :=
  if a = cmdAddr then execute v s else .next (s.withRegs (writeAddr a v s.regs))

/-- One whole transaction as one step (R67); what the bus cannot carry is refused (R61). -/
def perform (t : Txn) (s : State) : Host.Outcome State Fault Refusal :=
  match t.problem with
  | some why => .refused (.notOnBus why)
  | none =>
    match t with
    | .read a _ => memRead a s
    | .write a _ v => memWrite a v s

/-- The ports replaced. -/
def State.withPort (s : State) (q : Port) : State := { s with port := q }

/-- The `rst` input: every register at its reset value, and any open transaction abandoned with no effect (R208, R230,
V8; log 6). -/
def State.resetInput (s : State) : State :=
  { s with regs := Regs.reset s.params, port := Port.idle s.port.count }

/-- The transaction the port levels `we`, `wa` and `wdata` ask for: `wa` is `addr[11:2]` (R60, R75). -/
def portTxn (we : Bool) (wa : BitVec 10) (wdata : Word) : Txn :=
  if we then .write (4 * wa.toNat) 4 wdata else .read (4 * wa.toNat) 4

/-- `P_LAT` of the `n`-th transaction opened at the ports, in cycles: at least 1 (R12, R75; log 7). -/
def portLatency (n : Nat) : Nat := Config.extraCycles n + 1

/-- A transaction opens with the levels on the ports; it closes `P_LAT` edges later (R75). -/
def openPort (p : PortIn) (q : Port) : Port where
  opened := some { we := p.we, wa := p.wa, wdata := p.wdata, left := portLatency q.count - 1 }
  count := q.count + 1
  ready := false
  rdata := none

/-- The inputs of an open transaction are held: `we`, `wa` and `wdata` are held with `sel` (R75). The data of a read is
not used. -/
def inputsHeld (p : PortIn) (o : OpenTxn) : Bool :=
  p.sel && p.we == o.we && p.wa == o.wa && (!p.we || p.wdata == o.wdata)

/-- The outputs at the closing edge: `ready`, and for a read the data (R75). -/
def closePort (o : OpenTxn) (value : Word) (q : Port) : Port where
  opened := none
  count := q.count
  ready := true
  rdata := if o.we then none else some value

/-- The edge at which the open transaction closes: it has performed, command included (R67, R75). -/
def closeTxn (o : OpenTxn) (s : State) : Host.Outcome State Fault Refusal :=
  let t := portTxn o.we o.wa o.wdata
  perform t (s.withPort (closePort o (readAddr t.addr s.regs) s.port))

/-- One rising edge of `clk` with the levels `p` on the input ports (R75; log 7, log 8, log 9). At an edge
with `rst` at 1 nothing opens; DESIGN CHOICE (log 14): `sel` at 1 at the first edge with `rst` at 0 opens a new
transaction there, also where `sel` was already 1 while `rst` was. -/
def clockEdge (p : PortIn) (s : State) : Host.Outcome State Fault Refusal :=
  if p.rst then .next s.resetInput
  else match s.port.opened with
    | none => .next (s.withPort (if p.sel then openPort p s.port else Port.idle s.port.count))
    | some o =>
      if inputsHeld p o then
        match o.left with
        | 0 => closeTxn o s
        | n + 1 => .next (s.withPort { s.port with opened := some { o with left := n }, ready := false, rdata := none })
      else .refused .inputsNotHeld

/-- What one host operation does. -/
def runOp (op : HostOp) (s : State) : Host.Outcome State Fault Refusal :=
  match op with
  | .txn t =>
    match s.port.opened with
    | none => perform t s
    | some _ => .refused .overlapping
  | .rst none => .next s.resetInput
  | .rst (some t) =>
    match t.problem with
    | none => .next s.resetInput
    | some why => .refused (.notOnBus why)
  | .edge p => clockEdge p s

/-- The host's next operation taken from what it has still to do. -/
def State.popped (s : State) (rest : List HostOp) : State := { s with pending := rest }

/-- One step: the host's next operation. With none, the block waits: it has no step of its own (R6, R232; log 2). -/
def stepHost (s : State) : Host.Outcome State Fault Refusal :=
  match s.pending with
  | [] => .next s
  | op :: rest => runOp op (s.popped rest)

/-- The write to CMD that issues the command word `w` (R80). -/
def commandOp (w : Word) : HostOp := .txn (.write cmdAddr 4 w)

/-- The state in which the host's very next operation issues the command word `w`, with no transaction open at the
ports (log 1). -/
def issueCommand (w : Word) (s : State) : State :=
  { s with pending := commandOp w :: s.pending, port := { s.port with opened := none } }

end Sys2Proof.Machine
end

