-- ==== Sys2Proof/Machine/Step.lean ====
section
/-! DEFINITION. The step of the machine, and where its next command word is placed. -/

namespace Sys2Proof.Machine

/-- One step: the host's next operation and all it starts, as one atomic step (R6, R67). -/
def step (s : State) : Host.Outcome State Fault Refusal := stepHost s

/-- `s` with the command word of `nbits` bits `w` as the host's very next operation, a write to CMD (R80; log 1). -/
def State.withFetchWord (s : State) (nbits w : Nat) : State :=
  issueCommand (BitVec.ofNat 32 (w % 2 ^ nbits)) s

end Sys2Proof.Machine
end

