-- ==== Sys2Proof/Machine/Asm.lean ====
section
/-! DEFINITION. The host's assembly language: the transaction each operation stands for (R92, R93), and the reading of one
line of text (R92; log 13). No part of the block. -/

namespace Sys2Proof.Machine

/-- A command word written to CMD (R93). -/
def commandTxn (w : Word) : Txn := .write (regAddr .cmd) 4 w

/-- A word written to a channel register at `base + 16*c` (R93, R94). -/
def slotTxn (base c : Nat) (v : Word) : Txn := .write (base + 16 * c) 4 v

/-- The transaction an assembly operation stands for (R92, R93). -/
def expand : AsmOp → Txn
  | .wr addr value => .write addr 4 (BitVec.ofNat 32 value)
  | .rd addr => .read addr 4
  | .nop => commandTxn 0x00000000#32
  | .shape c => commandTxn (0x00000001#32 ||| BitVec.ofNat 32 c <<< 8)
  | .shapeAll => commandTxn 0x00000002#32
  | .encPpm => commandTxn 0x00000003#32
  | .encSbus => commandTxn 0x00000004#32
  | .cycle => commandTxn 0x00000005#32
  | .softReset => commandTxn 0x0000000F#32
  | .clrErr => .write 0x004 4 0x00000001#32
  | .cfg c kind inv expo =>
    slotTxn 0x104 c (BitVec.ofNat 32 expo <<< 16 ||| BitVec.ofNat 32 inv <<< 2 ||| BitVec.ofNat 32 kind)
  | .input c value => slotTxn 0x100 c (BitVec.ofNat 32 value)
  | .trim c t => slotTxn 0x108 c (BitVec.ofInt 32 t &&& 0xFFFF#32)
  | .pulse c p => slotTxn 0x10C c (BitVec.ofNat 32 p)

/-- The word being read, if it is not empty, put before the words after it. -/
def closeWord (cur : List Char) (rest : List (List Char)) : List (List Char) :=
  if cur = [] then rest else cur :: rest

/-- One character added before the text already split. -/
def splitChar (c : Char) (acc : List Char × List (List Char)) : List Char × List (List Char) :=
  if c = ' ' ∨ c = '\t' then ([], closeWord acc.1 acc.2)
  else if c = ',' then ([], [','] :: closeWord acc.1 acc.2)
  else (c :: acc.1, acc.2)

/-- A line as words: comment to end of line dropped, split at blanks, each comma a word (R92). -/
def words (line : List Char) : List (List Char) :=
  let acc := (line.takeWhile fun c => c ≠ ';').foldr splitChar ([], [])
  closeWord acc.1 acc.2

/-- The value of a digit below `base`. -/
def digit (base : Nat) (c : Char) : Option Nat :=
  let n := c.toNat
  let v := if 48 ≤ n ∧ n ≤ 57 then n - 48 else if 65 ≤ n ∧ n ≤ 70 then n - 55 else if 97 ≤ n ∧ n ≤ 102 then n - 87
    else base
  if v < base then some v else none

/-- Digits read after the value `acc`. -/
def digits (base : Nat) : Nat → List Char → Option Nat
  | acc, [] => some acc
  | acc, c :: cs => (digit base c).bind fun v => digits base (base * acc + v) cs

/-- A C-style hexadecimal or a decimal numeral (R92). -/
def numeral (cs : List Char) : Option Nat :=
  match cs with
  | '0' :: 'x' :: c :: rest => digits 16 0 (c :: rest)
  | c :: rest => digits 10 0 (c :: rest)
  | [] => none

/-- A numeral with an optional sign, for TRIM's `t` (R93). -/
def signedNumeral (cs : List Char) : Option Int :=
  match cs with
  | '-' :: rest => (numeral rest).map fun n => -(n : Int)
  | _ => (numeral cs).map fun n => (n : Int)

/-- The operation with this name and no operand. -/
def plainOp (m : List Char) : Option AsmOp :=
  if m = "NOP".toList then some .nop
  else if m = "SHAPE_ALL".toList then some .shapeAll
  else if m = "ENC_PPM".toList then some .encPpm
  else if m = "ENC_SBUS".toList then some .encSbus
  else if m = "CYCLE".toList then some .cycle
  else if m = "SOFT_RESET".toList then some .softReset
  else if m = "CLRERR".toList then some .clrErr
  else none

/-- The operation with this name and one operand. -/
def unaryOp (m : List Char) (a : Nat) : Option AsmOp :=
  if m = "RD".toList then some (.rd a) else if m = "SHAPE".toList then some (.shape a) else none

/-- The operation with this name and two operands. -/
def binaryOp (m : List Char) (a : Nat) (b : Int) : Option AsmOp :=
  if m = "TRIM".toList then some (.trim a b)
  else if b < 0 then none
  else if m = "WR".toList then some (.wr a b.toNat)
  else if m = "IN".toList then some (.input a b.toNat)
  else if m = "PULSE".toList then some (.pulse a b.toNat)
  else none

/-- The operation the words of a line name, whatever its operands' ranges. -/
def wordsOp : List (List Char) → Option AsmOp
  | [m] => plainOp m
  | [m, a] => (numeral a).bind fun a => unaryOp m a
  | [m, a, [','], b] => (numeral a).bind fun a => (signedNumeral b).bind fun b => binaryOp m a b
  | [m, a, [','], b, [','], c, [','], d] =>
    if m = "CFG".toList then
      (numeral a).bind fun a => (numeral b).bind fun b => (numeral c).bind fun c => (numeral d).map fun d =>
        .cfg a b c d
    else none
  | _ => none

/-- One line of a host program; `none` where it is no operation, or an operand is out of range (R92, R93). -/
def parseLine (line : List Char) : Option AsmOp :=
  (wordsOp (words line)).filter AsmOp.wellFormed

/-- The host operations of a list of assembly operations: the program is its transactions (R92, R244). -/
def assemble (ops : List AsmOp) : List HostOp := ops.map fun o => .txn (expand o)

end Sys2Proof.Machine
end

