-- ==== Sys2Proof/Safety.lean ====
section
/-! DEFINITION. What a sound state and a safe run of the TPE are, in the terms the statements use. -/

namespace Sys2Proof.Machine

/-- STATUS tells the truth about errors: ERR_CODE is 0 when ERR is 0, and a code that exists when ERR is 1 (R23, R203,
V4). -/
abbrev ErrorSound (g : Regs) : Prop :=
  (g.err = 0 ∧ g.errCode = 0) ∨ (g.err = 1 ∧ (g.errCode = 1 ∨ g.errCode = 2))

/-- The sum of the active times and gaps the PPM output registers hold. -/
def heldTotal (g : Regs) : Nat := ((List.finRange 16).map fun i => g.high[i].toNat + g.low[i].toNat).sum

/-- The PPM output registers are those of one frame: TOTAL is the sum of the pairs (R132), and a pair after a zero pair's
slot count is zero (R135). -/
abbrev PpmSound (g : Regs) : Prop :=
  g.total.toNat = heldTotal g ∧
    ∃ n : Nat, n ≤ 16 ∧ (g.ppmValid = 1 → 1 ≤ n) ∧
      ∀ i : SlotIndex, (n ≤ i.val → g.high[i] = 0 ∧ g.low[i] = 0) ∧ (i.val < n → g.low[i] = g.low[(0 : SlotIndex)])

/-- The SBUS output registers hold nothing before the first ENC_SBUS (R41), and afterwards the frame of values that are
in range (R40, R155, R156). -/
abbrev SbusSound (g : Regs) : Prop :=
  (g.sbusValid = 0 ∧ (∀ k : SlotIndex, g.sbusVal[k] = 0) ∧ ∀ w : Fin 7, g.sbusFrame[w] = 0) ∨
    (g.sbusValid = 1 ∧ (∀ k : SlotIndex, 172 ≤ g.sbusVal[k].toNat ∧ g.sbusVal[k].toNat ≤ 1811) ∧
      g.sbusFrame = frameOf g.sbusVal)

/-- The invariant of the registers: what every run keeps. -/
structure Regs.Sound (g : Regs) : Prop where
  error : ErrorSound g
  ppm : PpmSound g
  sbus : SbusSound g

/-- The host gives the bus only what it can carry, one whole transaction or `rst` pulse after another (R61, R67). -/
def HostOp.whole : HostOp → Bool
  | .edge _ => false
  | .txn t => (HostOp.txn t).wellFormed
  | .rst o => (HostOp.rst o).wellFormed

/-- A host program of whole operations, on a bus with nothing open (R244). -/
abbrev State.ReadyToRun (s : State) : Prop := s.port.opened = none ∧ ∀ op ∈ s.pending, HostOp.whole op = true

/-- Commands run one after another, stopping where one does not answer a next state. -/
def inTurn : List Instr → State → Host.Outcome State Fault Refusal
  | [], s => .next s
  | i :: is, s =>
    match exec i s with
    | .next t => inTurn is t
    | .fault r => .fault r
    | .refused r => .refused r

/-- A safe run of `n` steps: it ends in a next state, neither refused nor at fault. -/
abbrev SafeRun (n : Nat) (s : State) : Prop := ∃ t, Sys2Proof.core.run n s = .next t

/-- The transaction the next step performs, if it performs one: a whole transaction, or the one that closes at a clock
edge (R67, R75). -/
def State.performs (s : State) : Option Txn :=
  match s.pending with
  | [] => none
  | .txn t :: _ => if s.port.opened.isNone then some t else none
  | .rst _ :: _ => none
  | .edge p :: _ =>
    if p.rst then none
    else match s.port.opened with
      | none => none
      | some o => if inputsHeld p o && o.left == 0 then some (portTxn o.we o.wa o.wdata) else none

/-- The command word the next step issues, if it performs a write to CMD (R24). -/
def State.issues (s : State) : Option Word :=
  match s.performs with
  | some (.write a _ v) => if a = 0x008 then some v else none
  | _ => none

/-- The next step is the `rst` input's (R230). -/
def State.resetsNext (s : State) : Bool :=
  match s.pending with
  | .rst _ :: _ => true
  | .edge p :: _ => p.rst
  | _ => false

/-- The next step issues SOFT_RESET or is the `rst` input's: all that sets every register to its reset value (R172,
R230). -/
abbrev State.ResetsRegisters (s : State) : Prop :=
  s.resetsNext = true ∨ s.issues = some (encode .softReset)

/-- How many reads a list of host operations holds. -/
def readsIn : List HostOp → Nat
  | [] => 0
  | .txn (.read _ _) :: rest => readsIn rest + 1
  | _ :: rest => readsIn rest

end Sys2Proof.Machine
end

