-- ==== Sys2Proof/Certificates/Slice0/Obligations.lean ====
section
/-! DEFINITION. The statements about the TPE, each formalising rules of the spec. -/

open Sys2Proof Sys2Proof.Machine

/-! ### Command words -/

/-- R83, R84: a word decodes to a command exactly when it is that command's word, so that no bit of a word is dropped and
each command has one word. -/
def Obligations.DecodeIsTheInverseOfEncode : Prop :=
  ∀ (w : Word) (i : Instr), decode w = .ok i ↔ w = encode i

/-- R84: a word is legal exactly when it matches one row of R83, and a legal word's command has that row. -/
def Obligations.LegalWordMatchesExactlyOneRow : Prop :=
  ∀ w : Word,
    ((∃ i, decode w = .ok i) ↔ ∃! row : OpcodeRow, row ∈ opcodeRows ∧ w &&& row.mask = row.pattern) ∧
      ∀ i, decode w = .ok i → w &&& i.row.mask = i.row.pattern

/-- R85: of the 2^32 words all but 22 are illegal, which leaves 4294967274: the legal ones are the words of a list of
that length without repeats, and an illegal word is one that no row matches. -/
def Obligations.IllegalWordsAreCounted : Prop :=
  (∀ w : Word, (∃ why, decode w = .error why) ↔ ∀ row ∈ opcodeRows, w &&& row.mask ≠ row.pattern) ∧
    ∃ legal : List Word, legal.Nodup ∧ 4294967274 + legal.length = 2 ^ 32 ∧
      ∀ w : Word, w ∈ legal ↔ ∃ i, decode w = .ok i

/-- R83, R84: a few words, written out bit by bit from the table, decode to their commands, and three illegal ones are
rejected. Which check each rejection names is the model's choice (log 11). -/
def Obligations.SampleWordsDecode : Prop :=
  decode 0b00000000000000000000000000000000#32 = .ok .nop ∧
    decode 0b00000000000000000000111100000001#32 = .ok (.shape 15) ∧
    decode 0b00000000000000000000000000000011#32 = .ok .encPpm ∧
    decode 0b00000000000000000000000000001111#32 = .ok .softReset ∧
    decode 0b00000000000000000000000100001111#32 = .error .channelNotZero ∧
    decode 0b00000000000000000001000000000001#32 = .error .reservedBits ∧
    decode 0b00000000000000000000000000000110#32 = .error .unknownOpcode

/-! ### The step and the bus -/

/-- R80, R84: a write to CMD of a word that decodes to `i` is `i`, run on the state with that transaction taken from the
host's list. -/
def Obligations.StepRunsTheDecodedCommand : Prop :=
  ∀ (s : State) (rest : List HostOp) (w : Word) (i : Instr),
    s.port.opened = none → s.pending = .txn (.write 0x008 4 w) :: rest → decode w = .ok i →
      step s = exec i { s with pending := rest }

/-- R201: a write to CMD of a word that matches no row records code 1 and changes nothing else. -/
def Obligations.IllegalWordIsRecordedAndDoesNothingElse : Prop :=
  ∀ (s : State) (rest : List HostOp) (w : Word),
    s.port.opened = none → s.pending = .txn (.write 0x008 4 w) :: rest →
    (∀ row ∈ opcodeRows, w &&& row.mask ≠ row.pattern) →
      step s = .next { s with pending := rest, regs := { s.regs with err := 1, errCode := 1 } }

/-- R94, and the global registers of R62: the registers' addresses; and that the map between addresses and registers is
one to one; R62's reserved addresses are the rest. -/
def Obligations.RegistersStandAtTheirAddresses : Prop :=
  (∀ c : SlotIndex, regAt (0x100 + 16 * c.val) = some (.chIn c) ∧ regAt (0x104 + 16 * c.val) = some (.chCfg c) ∧
      regAt (0x108 + 16 * c.val) = some (.chTrim c) ∧ regAt (0x10C + 16 * c.val) = some (.chPulse c) ∧
      regAt (0x200 + 8 * c.val) = some (.ppmHigh c) ∧ regAt (0x204 + 8 * c.val) = some (.ppmLow c) ∧
      regAt (0x300 + 4 * c.val) = some (.sbusVal c)) ∧
    (∀ w : Fin 7, regAt (0x340 + 4 * w.val) = some (.sbusFrame w)) ∧
    (regAt 0x000 = some .ctrl ∧ regAt 0x004 = some .status ∧ regAt 0x008 = some .cmd ∧ regAt 0x00C = some .ppmNch ∧
      regAt 0x010 = some .ppmGap ∧ regAt 0x014 = some .ppmMinActive ∧ regAt 0x018 = some .ppmFrame ∧
      regAt 0x01C = some .ppmSyncMin ∧ regAt 0x020 = some .ppmSync ∧ regAt 0x024 = some .ppmTotal) ∧
    (∀ (a : Nat) (r : Reg), regAt a = some r ↔ a = regAddr r) ∧
    ∀ a : Nat, a % 4 = 0 → a < 0x1000 →
      (regAt a = none ↔ (0x028 ≤ a ∧ a ≤ 0x0FC) ∨ (0x280 ≤ a ∧ a ≤ 0x2FC) ∨ (0x35C ≤ a ∧ a ≤ 0xFFC))

/-- R63: a reserved address reads 0, a write to it changes nothing, and neither records an error. -/
def Obligations.ReservedAddressesReadZeroAndIgnoreWrites : Prop :=
  ∀ (s : State) (rest : List HostOp) (a : Nat) (v : Word),
    s.port.opened = none → a % 4 = 0 →
    ((0x028 ≤ a ∧ a ≤ 0x0FC) ∨ (0x280 ≤ a ∧ a ≤ 0x2FC) ∨ (0x35C ≤ a ∧ a ≤ 0xFFC)) →
      (s.pending = .txn (.read a 4) :: rest →
          step s = .next { s with pending := rest, returned := s.returned ++ [0#32] }) ∧
        (s.pending = .txn (.write a 4 v) :: rest → step s = .next { s with pending := rest })

/-- R64: a read returns each field at its bits and 0 in every reserved bit, and changes no register. -/
def Obligations.ReadReturnsEachFieldAtItsBits : Prop :=
  ∀ (s : State) (rest : List HostOp) (r : Reg),
    s.port.opened = none → s.pending = .txn (.read (regAddr r) 4) :: rest →
      ∃ v : Word, step s = .next { s with pending := rest, returned := s.returned ++ [v] } ∧
        v.toNat = match r with
          | .ctrl => s.regs.mode.toNat
          | .status => s.regs.err.toNat + 2 ^ 4 * s.regs.errCode.toNat + 2 ^ 8 * s.regs.ppmValid.toNat +
              2 ^ 9 * s.regs.sbusValid.toNat
          | .cmd => 0
          | .ppmNch => s.regs.nch.toNat
          | .ppmGap => s.regs.gap.toNat
          | .ppmMinActive => s.regs.minActive.toNat
          | .ppmFrame => s.regs.frame.toNat
          | .ppmSyncMin => s.regs.syncMin.toNat
          | .ppmSync => s.regs.sync.toNat
          | .ppmTotal => s.regs.total.toNat
          | .chIn c => s.regs.slots[c].value.toNat
          | .chCfg c => s.regs.slots[c].kind.toNat + 2 ^ 2 * s.regs.slots[c].invert.toNat +
              2 ^ 16 * s.regs.slots[c].expo.toNat
          | .chTrim c => s.regs.slots[c].trim.toNat
          | .chPulse c => s.regs.slots[c].pulse.toNat
          | .ppmHigh i => s.regs.high[i].toNat
          | .ppmLow i => s.regs.low[i].toNat
          | .sbusVal k => s.regs.sbusVal[k].toNat
          | .sbusFrame w => s.regs.sbusFrame[w].toNat

/-- R42, R65: a write to a register stores the written bits of its RW fields and nothing else: the register then reads as
the data under the mask of those fields, and every other register as before. -/
def Obligations.WriteToAnRwRegisterReadsBackThroughItsMask : Prop :=
  ∀ (s : State) (rest : List HostOp) (r : Reg) (v mask : Word),
    s.port.opened = none → s.pending = .txn (.write (regAddr r) 4 v) :: rest →
    (match r with
      | .ctrl => some 0x00000001#32
      | .ppmNch => some 0x0000001F#32
      | .ppmGap => some 0x0000FFFF#32
      | .ppmMinActive => some 0x0000FFFF#32
      | .ppmFrame => some 0x0000FFFF#32
      | .ppmSyncMin => some 0x0000FFFF#32
      | .chIn _ => some 0x0000FFFF#32
      | .chCfg _ => some 0xFFFF0007#32
      | .chTrim _ => some 0x0000FFFF#32
      | .chPulse _ => some 0x0000FFFF#32
      | _ => none) = some mask →
      ∃ g : Regs, step s = .next { s with pending := rest, regs := g } ∧ readReg r g = v &&& mask ∧
        ∀ r' : Reg, r' ≠ r → readReg r' g = readReg r' s.regs

/-- R42, R65: a write to a read-only register changes nothing but the host's list. -/
def Obligations.WriteToAReadOnlyRegisterIsIgnored : Prop :=
  ∀ (s : State) (rest : List HostOp) (v : Word) (r : Reg),
    s.port.opened = none →
    (r = .ppmSync ∨ r = .ppmTotal ∨ (∃ i, r = .ppmHigh i) ∨ (∃ i, r = .ppmLow i) ∨ (∃ k, r = .sbusVal k) ∨
      ∃ w, r = .sbusFrame w) →
    s.pending = .txn (.write (regAddr r) 4 v) :: rest → step s = .next { s with pending := rest }

/-- R23: a write of 1 to STATUS bit 0 sets ERR and ERR_CODE to 0 and keeps the valid flags; a write of 0 to that bit
changes nothing, whatever the other bits. -/
def Obligations.StatusWriteClearsTheErrorOnlyWithBitZero : Prop :=
  ∀ (s : State) (rest : List HostOp) (v : Word),
    s.port.opened = none → s.pending = .txn (.write 0x004 4 v) :: rest →
      step s = .next { s with
        pending := rest
        regs := if v.toNat % 2 = 1 then { s.regs with err := 0, errCode := 0 } else s.regs }

/-- R61: a transaction of a wrong size or at a misaligned address is refused, in every state with nothing open at the
ports. That an address at or above 0x1000, which R16 says does not occur, is refused too, and the name `notOnBus`, are the
model's choice (log 5). -/
def Obligations.TransactionsTheBusCannotCarryAreRefused : Prop :=
  ∀ (s : State) (rest : List HostOp) (t : Txn),
    s.port.opened = none → s.pending = .txn t :: rest →
      ((t.size ≠ 4 ∨ t.addr % 4 ≠ 0 ∨ 0x1000 ≤ t.addr) ↔ ∃ why, step s = .refused (.notOnBus why))

/-- R6, R232: with no operation of the host the block waits and nothing changes (the model's reading of waiting as a step
that changes nothing: log 2). -/
def Obligations.BlockWithoutTransactionsWaits : Prop :=
  ∀ s : State, s.pending = [] → step s = .next s

/-! ### Integer helpers -/

/-- R14: the integer helpers, each as the rule defines it, and the two roundings as roundings to the nearest integer with
the ties the rule names. -/
def Obligations.IntegerHelpersAreThoseOfTheRule : Prop :=
  (∀ x : Int, sign x = if x > 0 then 1 else if x = 0 then 0 else -1) ∧
    (∀ x : Int, absolute x = max x (-x)) ∧
    (∀ x lo hi : Int, lo ≤ hi → clamp x lo hi = max lo (min hi x)) ∧
    ∀ n d : Int, 0 < d →
      (fdiv n d * d ≤ n ∧ ∀ q : Int, q * d ≤ n → q ≤ fdiv n d) ∧
      rndHaz n d = sign n * fdiv (2 * absolute n + d) (2 * d) ∧
      rndHu n d = fdiv (2 * n + d) (2 * d) ∧
      (2 * (rndHaz n d * d - n) ≤ d ∧ 2 * (n - rndHaz n d * d) ≤ d ∧
        (2 * (n - rndHaz n d * d) = d → n < 0) ∧ (2 * (rndHaz n d * d - n) = d → 0 < n)) ∧
      (2 * (rndHu n d * d - n) ≤ d ∧ 2 * (n - rndHu n d * d) < d)

/-! ### Curve engine -/

/-- R109: SHAPE stores in CH_PULSE[c] the composed function of the rule, with no truncation, and changes nothing else;
the decode of CH_IN is that of R101 to R103. -/
def Obligations.ShapeStoresTheComposedFunction : Prop :=
  ∀ (s : State) (c : SlotIndex),
    let x := s.regs.slots[c]
    let pMin : Int := s.params.pMin
    let pMax : Int := s.params.pMax
    let mid : Int := (pMin + pMax) / 2
    let value : Int := x.value.toInt
    let r0 : Int :=
      if x.kind = 1 then max (-16384) (min 16384 value)
      else if x.kind = 2 then (if x.value.toNat % 2 = 1 then 16384 else -16384)
      else 16384 * sign value
    let r : Int := if x.invert = 1 then -r0 else r0
    let e : Int := x.expo.toNat
    let a : Int := (65536 - e) * r * 2 ^ 28 + e * r ^ 3
    let u : Int := mid + rndHaz ((pMax - pMin) * a) (2 ^ 59)
    let t : Int := u + x.trim.toInt
    let result : Int := if x.kind = 0 then mid else max pMin (min pMax t)
    ∃ v : BitVec 16, (v.toNat : Int) = result ∧
      exec (.shape c) s =
        .next { s with regs := { s.regs with slots := s.regs.slots.set c.val { x with pulse := v } } }

/-- R114: an absent source is neutral, whatever the slot's other fields. -/
def Obligations.AbsentSourceShapesToNeutral : Prop :=
  ∀ (s : State) (c : SlotIndex), s.regs.slots[c].kind = 0 →
    ∃ x : Slot, x = { s.regs.slots[c] with pulse := BitVec.ofNat 16 ((s.params.pMin + s.params.pMax) / 2) } ∧
      exec (.shape c) s = .next { s with regs := { s.regs with slots := s.regs.slots.set c.val x } }

/-- R110: the result of the curve engine is a pulse width of the build, and so is the pulse before trim. -/
def Obligations.ShapeStaysInThePulseRange : Prop :=
  ∀ p : Params,
    (∀ c : Slot, (p.pMin : Int) ≤ shape p c ∧ shape p c ≤ (p.pMax : Int) ∧ shape p c < 2 ^ 16) ∧
      ∀ e r : Int, 0 ≤ e → e ≤ 65535 → -16384 ≤ r → r ≤ 16384 →
        (p.pMin : Int) ≤ scaled p (adjusted e r) ∧ scaled p (adjusted e r) ≤ (p.pMax : Int)

/-- R111: at expo 0 the adjusted value is the raw value exactly, and the pulse is the linear one with one rounding, which
is none where the formula's value is an integer. -/
def Obligations.ExpoZeroIsTheIdentity : Prop :=
  ∀ r : Int, adjusted 0 r = r * 2 ^ 44 ∧
    (∀ p : Params,
      scaled p (adjusted 0 r) = (pMid p : Int) + rndHaz (((p.pMax : Int) - p.pMin) * r) (2 ^ 15) ∧
        ((2 : Int) ^ 15 ∣ (r + 16384) * ((p.pMax : Int) - p.pMin) →
          2 ^ 15 * (scaled p (adjusted 0 r) - p.pMin) = (r + 16384) * ((p.pMax : Int) - p.pMin))) ∧
    scaled Params.default (adjusted 0 r) = 1500 + rndHaz r 32

/-- R112: expo keeps the sign of the input and never makes it larger, and the pulse is non-decreasing in the raw value. -/
def Obligations.ExpoKeepsSignAndOrder : Prop :=
  ∀ e : Int, 0 ≤ e → e ≤ 65535 →
    (∀ r : Int, sign (adjusted e r) = sign r) ∧
    (∀ r : Int, -16384 ≤ r → r ≤ 16384 → absolute (adjusted e r) ≤ absolute r * 2 ^ 44) ∧
    (∀ r r' : Int, r < r' → adjusted e r < adjusted e r') ∧
    ∀ p : Params,
      (∀ r r' trim : Int, r ≤ r' → clamp (scaled p (adjusted e r) + trim) p.pMin p.pMax ≤
        clamp (scaled p (adjusted e r') + trim) p.pMin p.pMax) ∧
      ∀ r : Int, sign (scaled p (adjusted e r) - pMid p) = sign r ∨ scaled p (adjusted e r) = pMid p

/-- R113: flipping INVERT reflects the pulse about P_MID when the trim is 0 and the source is not absent; with a trim the
unclamped values are off by twice the trim. -/
def Obligations.InversionReflectsThePulseAtTrimZero : Prop :=
  ∀ (p : Params) (c : Slot), c.kind ≠ 0 →
    (c.trim.toInt = 0 →
      shape p { c with invert := ~~~c.invert } = 2 * ((((p.pMin + p.pMax) / 2 : Nat)) : Int) - shape p c) ∧
      ∀ r0 : Int,
        scaled p (adjusted (expoOf c) (inverted (~~~c.invert) r0)) + trimOf c =
          2 * ((((p.pMin + p.pMax) / 2 : Nat)) : Int) -
            (scaled p (adjusted (expoOf c) (inverted c.invert r0)) + trimOf c) + 2 * trimOf c

/-- R109: the curve engine reads its own slot's CH_IN, CH_CFG and CH_TRIM only: two states of one build whose slot `c`
agrees in them get the same pulse. -/
def Obligations.ShapeReadsItsOwnSlotOnly : Prop :=
  ∀ (s t : State) (c : SlotIndex),
    s.params = t.params → s.regs.slots[c].value = t.regs.slots[c].value → s.regs.slots[c].kind = t.regs.slots[c].kind →
    s.regs.slots[c].invert = t.regs.slots[c].invert → s.regs.slots[c].expo = t.regs.slots[c].expo →
    s.regs.slots[c].trim = t.regs.slots[c].trim →
      ∃ s' t', exec (.shape c) s = .next s' ∧ exec (.shape c) t = .next t' ∧
        s'.regs.slots[c].pulse = t'.regs.slots[c].pulse

/-- R117: SHAPE_ALL leaves in every slot the value SHAPE gives that slot alone, and changes nothing else. -/
def Obligations.ShapeAllShapesEverySlot : Prop :=
  ∀ s : State, ∃ slots : Vector Slot 16,
    exec .shapeAll s = .next { s with regs := { s.regs with slots := slots } } ∧
      ∀ c : SlotIndex, ∃ v : BitVec 16, slots[c] = { s.regs.slots[c] with pulse := v } ∧
        exec (.shape c) s = .next { s with regs := { s.regs with slots := s.regs.slots.set c.val slots[c] } }

/-- R117: SHAPE_ALL is the sixteen SHAPEs in any order. -/
def Obligations.ShapeAllIsAnyOrderOfShapes : Prop :=
  ∀ (s : State) (cs : List SlotIndex), cs.Perm (List.finRange 16) →
    exec .shapeAll s = inTurn (cs.map .shape) s

/-! ### PPM encoder -/

/-- R130, R131, R132, R133, R135: with N in 1..16, ENC_PPM writes the pairs, the channel time and the sync gap as
integers, with no truncation, sets PPM_VALID, and changes nothing else. -/
def Obligations.EncPpmWritesTheFrame : Prop :=
  ∀ s : State, 1 ≤ s.regs.nch.toNat → s.regs.nch.toNat ≤ 16 →
    ∃ (high low : Vector (BitVec 16) 16) (total : BitVec 22) (sync : BitVec 16),
      exec .encPpm s = .next { s with regs :=
        { s.regs with high := high, low := low, total := total, sync := sync, ppmValid := 1 } } ∧
      (∀ i : SlotIndex, i.val < s.regs.nch.toNat →
        (high[i].toNat : Int) =
            max ((s.regs.slots[i].pulse.toNat : Int) - s.regs.gap.toNat) (s.regs.minActive.toNat : Int) ∧
          low[i] = s.regs.gap) ∧
      (∀ i : SlotIndex, s.regs.nch.toNat ≤ i.val → high[i] = 0 ∧ low[i] = 0) ∧
      total.toNat = ∑ i : SlotIndex, (high[i].toNat + low[i].toNat) ∧
      (sync.toNat : Int) = max ((s.regs.frame.toNat : Int) - total.toNat) (s.regs.syncMin.toNat : Int)

/-- R132: the channel time is the sum of the pairs below N; its bounds; and when every pulse is at least G + M, each slot
lasts exactly its pulse and the channel time is the sum of the pulses. -/
def Obligations.ChannelTimeIsBoundedAndExact : Prop :=
  ∀ (s t : State), 1 ≤ s.regs.nch.toNat → s.regs.nch.toNat ≤ 16 → exec .encPpm s = .next t →
    (t.regs.total.toNat =
        ∑ i : SlotIndex, if i.val < s.regs.nch.toNat then t.regs.high[i].toNat + t.regs.low[i].toNat else 0) ∧
      s.regs.nch.toNat * (s.regs.minActive.toNat + s.regs.gap.toNat) ≤ t.regs.total.toNat ∧
      t.regs.total.toNat ≤ 16 * 131070 ∧
      ((∀ i : SlotIndex, i.val < s.regs.nch.toNat →
          s.regs.gap.toNat + s.regs.minActive.toNat ≤ s.regs.slots[i].pulse.toNat) →
        (∀ i : SlotIndex, i.val < s.regs.nch.toNat →
            t.regs.high[i].toNat + t.regs.low[i].toNat = s.regs.slots[i].pulse.toNat) ∧
          t.regs.total.toNat =
            ∑ i : SlotIndex, if i.val < s.regs.nch.toNat then s.regs.slots[i].pulse.toNat else 0)

/-- R138: the frame lasts max(F, total + S), which is the nominal period exactly when total <= F - S; the sync gap is
never below S. -/
def Obligations.PpmFrameLastsTheNominalPeriodOrMore : Prop :=
  ∀ (s t : State), 1 ≤ s.regs.nch.toNat → s.regs.nch.toNat ≤ 16 → exec .encPpm s = .next t →
    ((ppmWaveform s.regs.nch.toNat t.regs).map LineSpan.us).sum = t.regs.total.toNat + t.regs.sync.toNat ∧
      t.regs.total.toNat + t.regs.sync.toNat =
        max s.regs.frame.toNat (t.regs.total.toNat + s.regs.syncMin.toNat) ∧
      (t.regs.total.toNat + t.regs.sync.toNat = s.regs.frame.toNat ↔
        (t.regs.total.toNat : Int) ≤ (s.regs.frame.toNat : Int) - s.regs.syncMin.toNat) ∧
      s.regs.syncMin.toNat ≤ t.regs.sync.toNat

/-- R139: no step of ENC_PPM overflows a field. -/
def Obligations.EncPpmOverflowsNoField : Prop :=
  ∀ g : Regs,
    (∀ i : SlotIndex, 0 ≤ activeTime g i ∧ activeTime g i ≤ 65535) ∧ g.gap.toNat ≤ 65535 ∧
      0 ≤ channelTime g ∧ channelTime g ≤ 2097120 ∧ (2097120 : Int) < 2 ^ 22 ∧
      (g.syncMin.toNat : Int) ≤ syncGap g ∧ syncGap g ≤ max (g.frame.toNat : Int) g.syncMin.toNat ∧
      max g.frame.toNat g.syncMin.toNat ≤ 65535

/-- R202, R205: with N = 0 or N > 16, ENC_PPM clears PPM_VALID, records BAD_NCH and changes nothing else; CYCLE with
MODE = 0 does so after SHAPE_ALL, which stays done. -/
def Obligations.BadChannelCountIsRecorded : Prop :=
  ∀ s : State, (s.regs.nch.toNat = 0 ∨ 16 < s.regs.nch.toNat) →
    exec .encPpm s = .next { s with regs := { s.regs with ppmValid := 0, err := 1, errCode := 2 } } ∧
      (s.regs.mode = 0 → ∃ t, exec .shapeAll s = .next t ∧
        exec .cycle s = .next { t with regs := { t.regs with ppmValid := 0, err := 1, errCode := 2 } })

/-! ### SBUS encoder -/

/-- R150, R154: ENC_SBUS writes the sixteen mapped values as integers, with no truncation, and their frame, sets
SBUS_VALID, and changes nothing else. -/
def Obligations.EncSbusWritesTheFrame : Prop :=
  ∀ s : State, ∃ (vals : Vector (BitVec 11) 16) (frame : Vector Word 7),
    exec .encSbus s = .next { s with regs := { s.regs with sbusVal := vals, sbusFrame := frame, sbusValid := 1 } } ∧
      (∀ k : SlotIndex, (vals[k].toNat : Int) = max 172 (min 1811
        (172 + rndHu (((s.regs.slots[k].pulse.toNat : Int) - s.params.pMin) * (1811 - 172))
          ((s.params.pMax : Int) - s.params.pMin)))) ∧
      ∀ j : Fin 28, wordByte frame[(Fin.ofNat 7 (j.val / 4) : Fin 7)] j.val =
        if j.val = 0 then 0x0F#8
        else if j.val ≤ 22 then
          BitVec.ofNat 8 ((∑ k : SlotIndex, vals[k].toNat * 2 ^ (11 * k.val)) >>> (8 * (j.val - 1)) &&& 0xFF)
        else 0#8

/-- R151: stream bit `11*k + j` is bit `j` of value `k`, and bit `b` of data byte `m` is stream bit `8*m + b`;
equivalently, data byte `m` is `(X >> (8*m)) & 0xFF`. -/
def Obligations.DataBytesCarryTheBitsInOrder : Prop :=
  ∀ (vals : Vector (BitVec 11) 16) (m : Fin 22),
    (∀ (k : SlotIndex) (j : Fin 11) (b : Fin 8), 11 * k.val + j.val = 8 * m.val + b.val →
      (dataByte (packStream vals) m.val).getLsbD b.val = vals[k].getLsbD j.val) ∧
      (dataByte (packStream vals) m.val).toNat =
        (∑ k : SlotIndex, vals[k].toNat * 2 ^ (11 * k.val)) / 2 ^ (8 * m.val) % 2 ^ 8

/-- R152, R153, R155: after ENC_SBUS the 25 bytes of the frame are header, 22 data bytes, flags and end marker, and the
padding bytes of word 6 are 0. -/
def Obligations.SbusFrameHasItsLayout : Prop :=
  ∀ s t : State, exec .encSbus s = .next t →
    sbusBytes t.regs = 0x0F#8 :: ((List.range 22).map (dataByte (packStream t.regs.sbusVal)) ++ [0x00#8, 0x00#8]) ∧
      (sbusBytes t.regs).length = 25 ∧ t.regs.sbusFrame[(6 : Fin 7)] = 0#32 ∧
      t.regs.sbusFrame[(5 : Fin 7)].toNat < 2 ^ 24 ∧
      t.regs.sbusFrame[(0 : Fin 7)].toNat % 256 = 0x0F

/-- R156: the map is in [172, 1811], non-decreasing, and takes P_MIN to 172 and P_MAX to 1811. -/
def Obligations.SbusMapIsBoundedAndMonotone : Prop :=
  ∀ p : Params, sbusMap p p.pMin = 172 ∧ sbusMap p p.pMax = 1811 ∧
    ∀ a b : Int, (172 ≤ sbusMap p a ∧ sbusMap p a ≤ 1811) ∧ (a ≤ b → sbusMap p a ≤ sbusMap p b)

/-! ### Control commands and reset -/

/-- R170: NOP changes no state, in every state. -/
def Obligations.NopChangesNothing : Prop :=
  ∀ s : State, exec .nop s = .next s

/-- R171: with MODE = 0 and N in 1..16, CYCLE is SHAPE_ALL and then ENC_PPM: it writes the pulses, the PPM output registers
and PPM_VALID, and nothing else, so the SBUS registers, SBUS_VALID, ERR and ERR_CODE keep their values. -/
def Obligations.CycleInPpmModeShapesThenEncodes : Prop :=
  ∀ s : State, s.regs.mode = 0 → 1 ≤ s.regs.nch.toNat → s.regs.nch.toNat ≤ 16 →
    ∃ m t, exec .shapeAll s = .next m ∧ exec .encPpm m = .next t ∧ exec .cycle s = .next t ∧
      t = { s with regs := { s.regs with
        slots := m.regs.slots, high := t.regs.high, low := t.regs.low, total := t.regs.total, sync := t.regs.sync,
        ppmValid := 1 } }

/-- R171: with MODE = 1, CYCLE is SHAPE_ALL and then ENC_SBUS, whatever PPM_NCH holds: it writes the pulses, the SBUS
output registers and SBUS_VALID, and nothing else, so the PPM registers, PPM_VALID, ERR and ERR_CODE keep their values. -/
def Obligations.CycleInSbusModeShapesThenEncodes : Prop :=
  ∀ s : State, s.regs.mode = 1 →
    ∃ m t, exec .shapeAll s = .next m ∧ exec .encSbus m = .next t ∧ exec .cycle s = .next t ∧
      t = { s with regs := { s.regs with
        slots := m.regs.slots, sbusVal := t.regs.sbusVal, sbusFrame := t.regs.sbusFrame, sbusValid := 1 } }

/-- R172, R230: SOFT_RESET leaves every register at its reset value and changes no parameter; the `rst` input, at any
clock edge at which it is 1 and as a pulse that abandons an open transaction (log 6: how the model takes a pulse), sets
exactly the same values. That output `ready` is 0 after such a step is the model's reading of R75 (log 9). -/
def Obligations.ResetSetsEveryRegister : Prop :=
  ∀ s : State, ∃ g : Regs, exec .softReset s = .next { s with regs := g } ∧
    (∀ r : Reg, (readReg r g).toNat = match r with
      | .ppmNch => 8
      | .ppmGap => 300
      | .ppmMinActive => 100
      | .ppmFrame => 22500
      | .ppmSyncMin => 8000
      | .chPulse _ => (s.params.pMin + s.params.pMax) / 2
      | _ => 0) ∧
    (∀ rest op, s.pending = op :: rest →
      (∃ p, op = .edge p ∧ p.rst = true) ∨ op = .rst none ∨ (∃ t : Txn, op = .rst (some t) ∧ t.problem = none) →
        ∃ q : Port, q.opened = none ∧ q.ready = false ∧ step s = .next { s with pending := rest, regs := g, port := q })

/-- R230: the values of the state after reset, at the default parameters of R7 (that the host's list and the ports start
empty is the model's choice: logs 1, 7, 9). -/
def Obligations.ResetStateHoldsTheResetValues : Prop :=
  State.reset.params.pMin = 988 ∧ State.reset.params.pMax = 2012 ∧
    readReg .ctrl State.reset.regs = 0x00000000#32 ∧ readReg .status State.reset.regs = 0x00000000#32 ∧
    readReg .ppmNch State.reset.regs = 0x00000008#32 ∧ readReg .ppmGap State.reset.regs = 0x0000012C#32 ∧
    readReg .ppmMinActive State.reset.regs = 0x00000064#32 ∧ readReg .ppmFrame State.reset.regs = 0x000057E4#32 ∧
    readReg .ppmSyncMin State.reset.regs = 0x00001F40#32 ∧ readReg .ppmSync State.reset.regs = 0#32 ∧
    readReg .ppmTotal State.reset.regs = 0#32 ∧
    ∀ c : SlotIndex, readReg (.chIn c) State.reset.regs = 0#32 ∧ readReg (.chCfg c) State.reset.regs = 0#32 ∧
      readReg (.chTrim c) State.reset.regs = 0#32 ∧ readReg (.chPulse c) State.reset.regs = 0x000005DC#32 ∧
      readReg (.ppmHigh c) State.reset.regs = 0#32 ∧ readReg (.ppmLow c) State.reset.regs = 0#32 ∧
      readReg (.sbusVal c) State.reset.regs = 0#32 ∧ ∀ w : Fin 7, readReg (.sbusFrame w) State.reset.regs = 0#32

/-! ### The flags, over every step -/

/-- R206: commands run the same while ERR = 1, and none but SOFT_RESET clears it. -/
def Obligations.CommandsRunNormallyWhileAnErrorIsRecorded : Prop :=
  ∀ (i : Instr) (s : State) (code : BitVec 4),
    ∃ t t', exec i { s with regs := { s.regs with err := 0, errCode := 0 } } = .next t ∧
      exec i { s with regs := { s.regs with err := 1, errCode := code } } = .next t' ∧
      t' = { t with regs := { t.regs with err := t'.regs.err, errCode := t'.regs.errCode } } ∧
      (i ≠ .softReset → t'.regs.err = 1 ∧
        (t.regs.err = 0 → t'.regs.errCode = code) ∧ (t.regs.err = 1 → t'.regs.errCode = t.regs.errCode))

/-- R207: ERR and ERR_CODE are both 0 after a step that writes STATUS with bit 0 set, issues SOFT_RESET or is the `rst`
input's; and each of them, where it is not 0, becomes 0 by no other step. (Which clock edge performs a transaction driven
at the ports is the model's choice: log 7.) -/
def Obligations.ErrorIsClearedOnlyByItsThreeWays : Prop :=
  ∀ s t : State, step s = .next t →
    ((∃ v : Word, s.performs = some (.write 0x004 4 v) ∧ v.toNat % 2 = 1) ∨ s.ResetsRegisters →
        t.regs.err = 0 ∧ t.regs.errCode = 0) ∧
      (s.regs.err = 1 → (t.regs.err = 0 ↔
        (∃ v : Word, s.performs = some (.write 0x004 4 v) ∧ v.toNat % 2 = 1) ∨ s.ResetsRegisters)) ∧
      (s.regs.errCode ≠ 0 → (t.regs.errCode = 0 ↔
        (∃ v : Word, s.performs = some (.write 0x004 4 v) ∧ v.toNat % 2 = 1) ∨ s.ResetsRegisters))

/-- R136: PPM_VALID is set to 1 by every successful ENC_PPM, alone or in CYCLE, and to 0 by one that raises BAD_NCH, by
SOFT_RESET and by `rst`; no other step changes it. (Which clock edge performs a transaction driven at the ports is the
model's choice: log 7.) -/
def Obligations.PpmValidChangesOnlyAsItsRuleSays : Prop :=
  ∀ s t : State, step s = .next t →
    t.regs.ppmValid =
      if s.resetsNext = true ∨ s.issues = some (encode .softReset) then 0
      else if s.issues = some (encode .encPpm) ∨ (s.issues = some (encode .cycle) ∧ s.regs.mode = 0) then
        (if 1 ≤ s.regs.nch.toNat ∧ s.regs.nch.toNat ≤ 16 then 1 else 0)
      else s.regs.ppmValid

/-- R158: SBUS_VALID is set to 1 by every ENC_SBUS, alone or in CYCLE, and to 0 only by SOFT_RESET and `rst`; no other step
changes it. (Which clock edge performs a transaction driven at the ports is the model's choice: log 7.) -/
def Obligations.SbusValidChangesOnlyAsItsRuleSays : Prop :=
  ∀ s t : State, step s = .next t →
    t.regs.sbusValid =
      if s.resetsNext = true ∨ s.issues = some (encode .softReset) then 0
      else if s.issues = some (encode .encSbus) ∨ (s.issues = some (encode .cycle) ∧ s.regs.mode = 1) then 1
      else s.regs.sbusValid

/-- R20, R43: no command reads an output register: two states that differ in output registers only end in states that
differ in output registers only; the output registers the command writes (PPM: a successful ENC_PPM, alone or in CYCLE;
SBUS: ENC_SBUS, alone or in CYCLE; both: SOFT_RESET) are equal in both, and those it does not write are as they were in
each. -/
def Obligations.NoCommandReadsAnOutputRegister : Prop :=
  ∀ (i : Instr) (s : State) (high low : Vector (BitVec 16) 16) (total : BitVec 22) (sync : BitVec 16)
    (vals : Vector (BitVec 11) 16) (frame : Vector Word 7),
    ∃ t t', exec i s = .next t ∧
      exec i { s with regs := { s.regs with
        high := high, low := low, total := total, sync := sync, sbusVal := vals, sbusFrame := frame } } = .next t' ∧
      t = { t' with regs := { t'.regs with
        high := t.regs.high, low := t.regs.low, total := t.regs.total, sync := t.regs.sync,
        sbusVal := t.regs.sbusVal, sbusFrame := t.regs.sbusFrame } } ∧
      (if i = .softReset ∨
          ((i = .encPpm ∨ (i = .cycle ∧ s.regs.mode = 0)) ∧ 1 ≤ s.regs.nch.toNat ∧ s.regs.nch.toNat ≤ 16) then
        t.regs.high = t'.regs.high ∧ t.regs.low = t'.regs.low ∧ t.regs.total = t'.regs.total ∧
          t.regs.sync = t'.regs.sync
      else
        (t.regs.high = s.regs.high ∧ t.regs.low = s.regs.low ∧ t.regs.total = s.regs.total ∧
          t.regs.sync = s.regs.sync) ∧
        (t'.regs.high = high ∧ t'.regs.low = low ∧ t'.regs.total = total ∧ t'.regs.sync = sync)) ∧
      (if i = .softReset ∨ i = .encSbus ∨ (i = .cycle ∧ s.regs.mode = 1) then
        t.regs.sbusVal = t'.regs.sbusVal ∧ t.regs.sbusFrame = t'.regs.sbusFrame
      else
        (t.regs.sbusVal = s.regs.sbusVal ∧ t.regs.sbusFrame = s.regs.sbusFrame) ∧
        (t'.regs.sbusVal = vals ∧ t'.regs.sbusFrame = frame))

/-! ### Invariants and whole runs -/

/-- R23, R41, R132, R135, R155, R156: every step keeps the registers sound: ERR_CODE agrees with ERR, the PPM output
registers are those of one frame, and the SBUS output registers are 0 or the frame of values in range. -/
def Obligations.EveryStepKeepsTheRegistersSound : Prop :=
  ∀ s t : State, s.regs.Sound → step s = .next t → t.regs.Sound

/-- The registers are sound after reset, for every build. -/
def Obligations.ResetRegistersAreSound : Prop :=
  ∀ p : Params, (State.resetOf p).regs.Sound

/-- R7, R172: the parameters are fixed at build time: no step changes them. -/
def Obligations.NoStepChangesTheParameters : Prop :=
  ∀ s t : State, step s = .next t → t.params = s.params

/-- R244: every program of whole operations ends after its last one, with one value returned for each of its reads. That
the program stands in State is the model's choice (log 1), and that a read abandoned by `rst` returns no value is its
reading (log 6). -/
def Obligations.EveryHostProgramEnds : Prop :=
  ∀ s : State, s.ReadyToRun →
    ∃ t, Sys2Proof.core.run s.pending.length s = .next t ∧ t.pending = [] ∧
      ∃ vs : List Word, t.returned = s.returned ++ vs ∧ vs.length = readsIn s.pending

/-- R67, R75: a transaction driven at the ports, opened at one edge and held for as many edges as the block takes, does to
the registers and returns to the host exactly what the same transaction does as one step; `ready` is 1 at the closing
edge and at no edge before it, and the data of a read is on `rdata` there. That no register changes before the closing
edge is the model's choice (log 7, unsafe for just this claim); `ready` and `rdata` are as log 9 reads R75. -/
def Obligations.PortTransactionIsTheWholeTransaction : Prop :=
  ∀ (s : State) (p : PortIn) (rest : List HostOp),
    s.port.opened = none → p.rst = false → p.sel = true →
    s.pending = List.replicate (portLatency s.port.count + 1) (.edge p) ++ rest →
      ∃ t u,
        Sys2Proof.core.run (portLatency s.port.count + 1) s = .next t ∧
        step (s.popped (.txn (if p.we then .write (4 * p.wa.toNat) 4 p.wdata else .read (4 * p.wa.toNat) 4) :: rest)) =
          .next u ∧
        t.regs = u.regs ∧ t.returned = u.returned ∧ t.params = u.params ∧ t.pending = rest ∧
        t.port.opened = none ∧ t.port.ready = true ∧
        (p.we = false → t.port.rdata = some (readAddr (4 * p.wa.toNat) s.regs)) ∧
        ∀ n, 1 ≤ n → n ≤ portLatency s.port.count →
          ∃ m, Sys2Proof.core.run n s = .next m ∧ m.regs = s.regs ∧ m.returned = s.returned ∧ m.port.ready = false

/-- R67, R208: transactions never overlap: a whole transaction issued while one is open at the ports is refused (the
model's way of saying that the one host does not do it: log 8). -/
def Obligations.OverlappingTransactionIsRefused : Prop :=
  ∀ (s : State) (t : Txn) (rest : List HostOp),
    s.pending = .txn t :: rest → s.port.opened ≠ none → step s = .refused .overlapping

/-- R75: the host holds `we`, `wa` and `wdata` while its transaction is open; a clock edge at which they are not held is
refused, and no other is (the refusal is the model's choice: log 8). -/
def Obligations.InputsNotHeldAreRefused : Prop :=
  ∀ (s : State) (o : OpenTxn) (p : PortIn) (rest : List HostOp),
    s.pending = .edge p :: rest → s.port.opened = some o → p.rst = false →
      (step s = .refused .inputsNotHeld ↔
        p.sel = false ∨ p.we ≠ o.we ∨ p.wa ≠ o.wa ∨ (p.we = true ∧ p.wdata ≠ o.wdata)) ∧
      ∀ r, step s = .refused r → r = .inputsNotHeld

/-! ### The host's assembly operations -/

/-- R93: the pseudo-instructions of the commands are the command words written to CMD, and CLRERR is its write to STATUS. -/
def Obligations.PseudoCommandsAreTheCommandWords : Prop :=
  expand .nop = .write 0x008 4 (encode .nop) ∧ (∀ c : SlotIndex, expand (.shape c.val) = .write 0x008 4 (encode (.shape c))) ∧
    expand .shapeAll = .write 0x008 4 (encode .shapeAll) ∧ expand .encPpm = .write 0x008 4 (encode .encPpm) ∧
    expand .encSbus = .write 0x008 4 (encode .encSbus) ∧ expand .cycle = .write 0x008 4 (encode .cycle) ∧
    expand .softReset = .write 0x008 4 (encode .softReset) ∧ expand .clrErr = .write 0x004 4 0x00000001#32

/-- R93, R88, R89, R90: CFG, IN, TRIM and PULSE leave their operands in the fields of their slot, and change nothing
else. -/
def Obligations.PseudoSlotWritesSetTheirFields : Prop :=
  ∀ (s : State) (rest : List HostOp) (c : SlotIndex) (o : AsmOp),
    s.port.opened = none → s.pending = .txn (expand o) :: rest → o.wellFormed = true →
      (∀ kind inv expo : Nat, o = .cfg c.val kind inv expo →
        ∃ x : Slot, step s = .next { s with pending := rest, regs := { s.regs with slots := s.regs.slots.set c.val x } } ∧
          x = { s.regs.slots[c] with kind := x.kind, invert := x.invert, expo := x.expo } ∧
          x.kind.toNat = kind ∧ x.invert.toNat = inv ∧ x.expo.toNat = expo) ∧
      (∀ t : Int, o = .trim c.val t →
        ∃ x : Slot, step s = .next { s with pending := rest, regs := { s.regs with slots := s.regs.slots.set c.val x } } ∧
          x = { s.regs.slots[c] with trim := x.trim } ∧ x.trim.toInt = t) ∧
      (∀ v : Nat, o = .input c.val v →
        ∃ x : Slot, step s = .next { s with pending := rest, regs := { s.regs with slots := s.regs.slots.set c.val x } } ∧
          x = { s.regs.slots[c] with value := x.value } ∧ x.value.toNat = v % 2 ^ 16) ∧
      ∀ v : Nat, o = .pulse c.val v →
        ∃ x : Slot, step s = .next { s with pending := rest, regs := { s.regs with slots := s.regs.slots.set c.val x } } ∧
          x = { s.regs.slots[c] with pulse := x.pulse } ∧ x.pulse.toNat = v % 2 ^ 16
end

