-- ==== Sys2Proof/Laws/Numeric.lean ====
section
/-! SUPPORT. What the integer helpers do, for the proofs to cite: bounds of the clamp and of field readings, exact writes
to a field, and the oddness, order and scaling of the rounding. -/

namespace Sys2Proof.Machine

/-- A clamp is never below its lower bound. -/
theorem le_clamp (x lo hi : Int) : lo ≤ clamp x lo hi := le_max_left _ _

/-- A clamp is never above its upper bound. -/
theorem clamp_le {lo hi : Int} (x : Int) (h : lo ≤ hi) : clamp x lo hi ≤ hi := max_le h (min_le_left _ _)

/-- A clamp keeps order. -/
theorem clamp_mono {x y : Int} (lo hi : Int) (h : x ≤ y) : clamp x lo hi ≤ clamp y lo hi :=
  max_le_max_left _ (min_le_min_left _ h)

/-- A clamp is the identity between its bounds. -/
theorem clamp_of_mem {x lo hi : Int} (hl : lo ≤ x) (hu : x ≤ hi) : clamp x lo hi = x := by
  rw [clamp, min_eq_right hu, max_eq_right hl]

/-- An unsigned reading is not negative. -/
theorem zext_nonneg {n : Nat} (v : BitVec n) : 0 ≤ zext v := Int.natCast_nonneg _

/-- An unsigned reading is below `2^n`. -/
theorem zext_lt {n : Nat} (v : BitVec n) : zext v < 2 ^ n := by
  rw [zext]; exact_mod_cast v.isLt

/-- An integer in range is written to a field exactly (R13). -/
theorem toNat_toField {n : Nat} {v : Int} (h0 : 0 ≤ v) (h1 : v < 2 ^ n) : ((toField n v).toNat : Int) = v := by
  rw [toField, BitVec.toNat_ofInt]
  have hm : v % (2 ^ n : Nat) = v := Int.emod_eq_of_lt h0 (by exact_mod_cast h1)
  rw [hm, Int.toNat_of_nonneg h0]

/-- A field written from a reading is the field. -/
@[simp] theorem toField_zext {n : Nat} (v : BitVec n) : toField n (zext v) = v := by
  simp [toField, zext]

/-- The sign of a product with a positive factor. -/
theorem sign_mul_pos {k : Int} (n : Int) (hk : 0 < k) : sign (n * k) = sign n := by
  rcases lt_trichotomy n 0 with h | h | h
  · have := Int.mul_neg_of_neg_of_pos h hk
    simp only [sign]; split_ifs <;> omega
  · simp [h, sign]
  · have := Int.mul_pos h hk
    simp only [sign]; split_ifs; rfl

/-- The sign of the opposite. -/
theorem sign_neg (n : Int) : sign (-n) = -sign n := by
  simp only [sign]; split_ifs <;> omega

/-- Floor division keeps order. -/
theorem fdiv_mono {n m d : Int} (hd : 0 < d) (h : n ≤ m) : fdiv n d ≤ fdiv m d := Int.ediv_le_ediv hd h

/-- Rounding to nearest with ties away from zero is odd: the reason the curve engine is symmetric (R113). -/
theorem rndHaz_neg (n d : Int) : rndHaz (-n) d = -rndHaz n d := by
  simp [rndHaz, sign_neg, absolute]

/-- Rounding a quotient does not depend on how the fraction is written (R111). -/
theorem rndHaz_mul_right {k : Int} (n d : Int) (hk : 0 < k) : rndHaz (n * k) (d * k) = rndHaz n d := by
  have e : 2 * absolute (n * k) + d * k = (2 * absolute n + d) * k := by
    simp only [absolute, Int.natCast_natAbs, abs_mul, abs_of_pos hk]
    ring
  have e2 : 2 * (d * k) = (2 * d) * k := by ring
  rw [rndHaz, rndHaz, sign_mul_pos n hk, e, e2, fdiv, fdiv, Int.mul_ediv_mul_of_pos_left _ _ hk]

/-- The rounding of a non-negative quotient is the floor of the quotient plus one half. -/
theorem rndHaz_of_nonneg {n d : Int} (hn : 0 ≤ n) (hd : 0 < d) : rndHaz n d = fdiv (2 * n + d) (2 * d) := by
  rcases hn.eq_or_lt with h | h
  · subst h
    have : d / (2 * d) = 0 := Int.ediv_eq_zero_of_lt hd.le (by omega)
    simp [rndHaz, sign, fdiv, this]
  · have ha : absolute n = n := Int.natAbs_of_nonneg hn
    simp [rndHaz, sign, h, ha]

/-- The rounding keeps order. -/
theorem rndHaz_mono {n m d : Int} (hd : 0 < d) (h : n ≤ m) : rndHaz n d ≤ rndHaz m d := by
  have nonneg : ∀ {x : Int}, 0 ≤ x → 0 ≤ rndHaz x d := fun {x} hx => by
    rw [rndHaz_of_nonneg hx hd]; exact Int.ediv_nonneg (by omega) (by omega)
  rcases le_total 0 n with hn | hn
  · rw [rndHaz_of_nonneg hn hd, rndHaz_of_nonneg (hn.trans h) hd]
    exact fdiv_mono (by omega) (by omega)
  · rcases le_total 0 m with hm | hm
    · have := nonneg (x := -n) (by omega)
      rw [rndHaz_neg] at this
      exact le_trans (by omega) (nonneg hm)
    · have : rndHaz (-m) d ≤ rndHaz (-n) d := by
        rw [rndHaz_of_nonneg (by omega) hd, rndHaz_of_nonneg (by omega) hd]
        exact fdiv_mono (by omega) (by omega)
      rw [rndHaz_neg, rndHaz_neg] at this
      omega

/-- The limits of a build lie evenly about the neutral pulse (R8). -/
theorem two_mul_pMid (p : Params) : 2 * pMid p = p.pMin + p.pMax := by
  have := p.legal
  simp only [pMid]; omega

end Sys2Proof.Machine
end

