-- ==== Sys2Proof/Laws/State.lean ====
section
/-! SUPPORT. One lemma per field per update of the state and of the registers, each true by unfolding it once, so that no later
proof unfolds a record update. -/

namespace Sys2Proof.Machine

variable (s : State) (g : Regs)

@[simp] theorem State.withRegs_params : (s.withRegs g).params = s.params := rfl
@[simp] theorem State.withRegs_regs : (s.withRegs g).regs = g := rfl
@[simp] theorem State.withRegs_pending : (s.withRegs g).pending = s.pending := rfl
@[simp] theorem State.withRegs_returned : (s.withRegs g).returned = s.returned := rfl
@[simp] theorem State.withRegs_port : (s.withRegs g).port = s.port := rfl

@[simp] theorem State.withPort_params (q : Port) : (s.withPort q).params = s.params := rfl
@[simp] theorem State.withPort_regs (q : Port) : (s.withPort q).regs = s.regs := rfl
@[simp] theorem State.withPort_pending (q : Port) : (s.withPort q).pending = s.pending := rfl
@[simp] theorem State.withPort_returned (q : Port) : (s.withPort q).returned = s.returned := rfl
@[simp] theorem State.withPort_port (q : Port) : (s.withPort q).port = q := rfl

@[simp] theorem State.logRead_params (v : Word) : (s.logRead v).params = s.params := rfl
@[simp] theorem State.logRead_regs (v : Word) : (s.logRead v).regs = s.regs := rfl
@[simp] theorem State.logRead_pending (v : Word) : (s.logRead v).pending = s.pending := rfl
@[simp] theorem State.logRead_returned (v : Word) : (s.logRead v).returned = s.returned ++ [v] := rfl
@[simp] theorem State.logRead_port (v : Word) : (s.logRead v).port = s.port := rfl

@[simp] theorem State.popped_params (rest : List HostOp) : (s.popped rest).params = s.params := rfl
@[simp] theorem State.popped_regs (rest : List HostOp) : (s.popped rest).regs = s.regs := rfl
@[simp] theorem State.popped_pending (rest : List HostOp) : (s.popped rest).pending = rest := rfl
@[simp] theorem State.popped_returned (rest : List HostOp) : (s.popped rest).returned = s.returned := rfl
@[simp] theorem State.popped_port (rest : List HostOp) : (s.popped rest).port = s.port := rfl

@[simp] theorem State.resetInput_params : (s.resetInput).params = s.params := rfl
@[simp] theorem State.resetInput_regs : (s.resetInput).regs = Regs.reset s.params := rfl
@[simp] theorem State.resetInput_pending : (s.resetInput).pending = s.pending := rfl
@[simp] theorem State.resetInput_returned : (s.resetInput).returned = s.returned := rfl
@[simp] theorem State.resetInput_port : (s.resetInput).port = Port.idle s.port.count := rfl

@[simp] theorem raiseError_mode (e : ErrorCause) : (raiseError e g).mode = g.mode := rfl
@[simp] theorem raiseError_err (e : ErrorCause) : (raiseError e g).err = 1 := rfl
@[simp] theorem raiseError_errCode (e : ErrorCause) : (raiseError e g).errCode = errorCode e := rfl
@[simp] theorem raiseError_ppmValid (e : ErrorCause) : (raiseError e g).ppmValid = g.ppmValid := rfl
@[simp] theorem raiseError_sbusValid (e : ErrorCause) : (raiseError e g).sbusValid = g.sbusValid := rfl
@[simp] theorem raiseError_nch (e : ErrorCause) : (raiseError e g).nch = g.nch := rfl
@[simp] theorem raiseError_gap (e : ErrorCause) : (raiseError e g).gap = g.gap := rfl
@[simp] theorem raiseError_minActive (e : ErrorCause) : (raiseError e g).minActive = g.minActive := rfl
@[simp] theorem raiseError_frame (e : ErrorCause) : (raiseError e g).frame = g.frame := rfl
@[simp] theorem raiseError_syncMin (e : ErrorCause) : (raiseError e g).syncMin = g.syncMin := rfl
@[simp] theorem raiseError_sync (e : ErrorCause) : (raiseError e g).sync = g.sync := rfl
@[simp] theorem raiseError_total (e : ErrorCause) : (raiseError e g).total = g.total := rfl
@[simp] theorem raiseError_slots (e : ErrorCause) : (raiseError e g).slots = g.slots := rfl
@[simp] theorem raiseError_high (e : ErrorCause) : (raiseError e g).high = g.high := rfl
@[simp] theorem raiseError_low (e : ErrorCause) : (raiseError e g).low = g.low := rfl
@[simp] theorem raiseError_sbusVal (e : ErrorCause) : (raiseError e g).sbusVal = g.sbusVal := rfl
@[simp] theorem raiseError_sbusFrame (e : ErrorCause) : (raiseError e g).sbusFrame = g.sbusFrame := rfl

@[simp] theorem clearError_mode : (clearError g).mode = g.mode := rfl
@[simp] theorem clearError_err : (clearError g).err = 0 := rfl
@[simp] theorem clearError_errCode : (clearError g).errCode = 0 := rfl
@[simp] theorem clearError_ppmValid : (clearError g).ppmValid = g.ppmValid := rfl
@[simp] theorem clearError_sbusValid : (clearError g).sbusValid = g.sbusValid := rfl
@[simp] theorem clearError_nch : (clearError g).nch = g.nch := rfl
@[simp] theorem clearError_gap : (clearError g).gap = g.gap := rfl
@[simp] theorem clearError_minActive : (clearError g).minActive = g.minActive := rfl
@[simp] theorem clearError_frame : (clearError g).frame = g.frame := rfl
@[simp] theorem clearError_syncMin : (clearError g).syncMin = g.syncMin := rfl
@[simp] theorem clearError_sync : (clearError g).sync = g.sync := rfl
@[simp] theorem clearError_total : (clearError g).total = g.total := rfl
@[simp] theorem clearError_slots : (clearError g).slots = g.slots := rfl
@[simp] theorem clearError_high : (clearError g).high = g.high := rfl
@[simp] theorem clearError_low : (clearError g).low = g.low := rfl
@[simp] theorem clearError_sbusVal : (clearError g).sbusVal = g.sbusVal := rfl
@[simp] theorem clearError_sbusFrame : (clearError g).sbusFrame = g.sbusFrame := rfl

@[simp] theorem markPpmValid_mode : (markPpmValid g).mode = g.mode := rfl
@[simp] theorem markPpmValid_err : (markPpmValid g).err = g.err := rfl
@[simp] theorem markPpmValid_errCode : (markPpmValid g).errCode = g.errCode := rfl
@[simp] theorem markPpmValid_ppmValid : (markPpmValid g).ppmValid = 1 := rfl
@[simp] theorem markPpmValid_sbusValid : (markPpmValid g).sbusValid = g.sbusValid := rfl
@[simp] theorem markPpmValid_nch : (markPpmValid g).nch = g.nch := rfl
@[simp] theorem markPpmValid_gap : (markPpmValid g).gap = g.gap := rfl
@[simp] theorem markPpmValid_minActive : (markPpmValid g).minActive = g.minActive := rfl
@[simp] theorem markPpmValid_frame : (markPpmValid g).frame = g.frame := rfl
@[simp] theorem markPpmValid_syncMin : (markPpmValid g).syncMin = g.syncMin := rfl
@[simp] theorem markPpmValid_sync : (markPpmValid g).sync = g.sync := rfl
@[simp] theorem markPpmValid_total : (markPpmValid g).total = g.total := rfl
@[simp] theorem markPpmValid_slots : (markPpmValid g).slots = g.slots := rfl
@[simp] theorem markPpmValid_high : (markPpmValid g).high = g.high := rfl
@[simp] theorem markPpmValid_low : (markPpmValid g).low = g.low := rfl
@[simp] theorem markPpmValid_sbusVal : (markPpmValid g).sbusVal = g.sbusVal := rfl
@[simp] theorem markPpmValid_sbusFrame : (markPpmValid g).sbusFrame = g.sbusFrame := rfl

@[simp] theorem markPpmInvalid_mode : (markPpmInvalid g).mode = g.mode := rfl
@[simp] theorem markPpmInvalid_err : (markPpmInvalid g).err = g.err := rfl
@[simp] theorem markPpmInvalid_errCode : (markPpmInvalid g).errCode = g.errCode := rfl
@[simp] theorem markPpmInvalid_ppmValid : (markPpmInvalid g).ppmValid = 0 := rfl
@[simp] theorem markPpmInvalid_sbusValid : (markPpmInvalid g).sbusValid = g.sbusValid := rfl
@[simp] theorem markPpmInvalid_nch : (markPpmInvalid g).nch = g.nch := rfl
@[simp] theorem markPpmInvalid_gap : (markPpmInvalid g).gap = g.gap := rfl
@[simp] theorem markPpmInvalid_minActive : (markPpmInvalid g).minActive = g.minActive := rfl
@[simp] theorem markPpmInvalid_frame : (markPpmInvalid g).frame = g.frame := rfl
@[simp] theorem markPpmInvalid_syncMin : (markPpmInvalid g).syncMin = g.syncMin := rfl
@[simp] theorem markPpmInvalid_sync : (markPpmInvalid g).sync = g.sync := rfl
@[simp] theorem markPpmInvalid_total : (markPpmInvalid g).total = g.total := rfl
@[simp] theorem markPpmInvalid_slots : (markPpmInvalid g).slots = g.slots := rfl
@[simp] theorem markPpmInvalid_high : (markPpmInvalid g).high = g.high := rfl
@[simp] theorem markPpmInvalid_low : (markPpmInvalid g).low = g.low := rfl
@[simp] theorem markPpmInvalid_sbusVal : (markPpmInvalid g).sbusVal = g.sbusVal := rfl
@[simp] theorem markPpmInvalid_sbusFrame : (markPpmInvalid g).sbusFrame = g.sbusFrame := rfl

@[simp] theorem markSbusValid_mode : (markSbusValid g).mode = g.mode := rfl
@[simp] theorem markSbusValid_err : (markSbusValid g).err = g.err := rfl
@[simp] theorem markSbusValid_errCode : (markSbusValid g).errCode = g.errCode := rfl
@[simp] theorem markSbusValid_ppmValid : (markSbusValid g).ppmValid = g.ppmValid := rfl
@[simp] theorem markSbusValid_sbusValid : (markSbusValid g).sbusValid = 1 := rfl
@[simp] theorem markSbusValid_nch : (markSbusValid g).nch = g.nch := rfl
@[simp] theorem markSbusValid_gap : (markSbusValid g).gap = g.gap := rfl
@[simp] theorem markSbusValid_minActive : (markSbusValid g).minActive = g.minActive := rfl
@[simp] theorem markSbusValid_frame : (markSbusValid g).frame = g.frame := rfl
@[simp] theorem markSbusValid_syncMin : (markSbusValid g).syncMin = g.syncMin := rfl
@[simp] theorem markSbusValid_sync : (markSbusValid g).sync = g.sync := rfl
@[simp] theorem markSbusValid_total : (markSbusValid g).total = g.total := rfl
@[simp] theorem markSbusValid_slots : (markSbusValid g).slots = g.slots := rfl
@[simp] theorem markSbusValid_high : (markSbusValid g).high = g.high := rfl
@[simp] theorem markSbusValid_low : (markSbusValid g).low = g.low := rfl
@[simp] theorem markSbusValid_sbusVal : (markSbusValid g).sbusVal = g.sbusVal := rfl
@[simp] theorem markSbusValid_sbusFrame : (markSbusValid g).sbusFrame = g.sbusFrame := rfl

@[simp] theorem setSlot_mode (c : SlotIndex) (x : Slot) : (setSlot c x g).mode = g.mode := rfl
@[simp] theorem setSlot_err (c : SlotIndex) (x : Slot) : (setSlot c x g).err = g.err := rfl
@[simp] theorem setSlot_errCode (c : SlotIndex) (x : Slot) : (setSlot c x g).errCode = g.errCode := rfl
@[simp] theorem setSlot_ppmValid (c : SlotIndex) (x : Slot) : (setSlot c x g).ppmValid = g.ppmValid := rfl
@[simp] theorem setSlot_sbusValid (c : SlotIndex) (x : Slot) : (setSlot c x g).sbusValid = g.sbusValid := rfl
@[simp] theorem setSlot_nch (c : SlotIndex) (x : Slot) : (setSlot c x g).nch = g.nch := rfl
@[simp] theorem setSlot_gap (c : SlotIndex) (x : Slot) : (setSlot c x g).gap = g.gap := rfl
@[simp] theorem setSlot_minActive (c : SlotIndex) (x : Slot) : (setSlot c x g).minActive = g.minActive := rfl
@[simp] theorem setSlot_frame (c : SlotIndex) (x : Slot) : (setSlot c x g).frame = g.frame := rfl
@[simp] theorem setSlot_syncMin (c : SlotIndex) (x : Slot) : (setSlot c x g).syncMin = g.syncMin := rfl
@[simp] theorem setSlot_sync (c : SlotIndex) (x : Slot) : (setSlot c x g).sync = g.sync := rfl
@[simp] theorem setSlot_total (c : SlotIndex) (x : Slot) : (setSlot c x g).total = g.total := rfl
@[simp] theorem setSlot_slots (c : SlotIndex) (x : Slot) : (setSlot c x g).slots = g.slots.set c.val x := rfl
@[simp] theorem setSlot_high (c : SlotIndex) (x : Slot) : (setSlot c x g).high = g.high := rfl
@[simp] theorem setSlot_low (c : SlotIndex) (x : Slot) : (setSlot c x g).low = g.low := rfl
@[simp] theorem setSlot_sbusVal (c : SlotIndex) (x : Slot) : (setSlot c x g).sbusVal = g.sbusVal := rfl
@[simp] theorem setSlot_sbusFrame (c : SlotIndex) (x : Slot) : (setSlot c x g).sbusFrame = g.sbusFrame := rfl

@[simp] theorem writePpmFrame_mode : (writePpmFrame g).mode = g.mode := by simp only [writePpmFrame]
@[simp] theorem writePpmFrame_err : (writePpmFrame g).err = g.err := by simp only [writePpmFrame]
@[simp] theorem writePpmFrame_errCode : (writePpmFrame g).errCode = g.errCode := by simp only [writePpmFrame]
@[simp] theorem writePpmFrame_ppmValid : (writePpmFrame g).ppmValid = g.ppmValid := by simp only [writePpmFrame]
@[simp] theorem writePpmFrame_sbusValid : (writePpmFrame g).sbusValid = g.sbusValid := by simp only [writePpmFrame]
@[simp] theorem writePpmFrame_nch : (writePpmFrame g).nch = g.nch := by simp only [writePpmFrame]
@[simp] theorem writePpmFrame_gap : (writePpmFrame g).gap = g.gap := by simp only [writePpmFrame]
@[simp] theorem writePpmFrame_minActive : (writePpmFrame g).minActive = g.minActive := by simp only [writePpmFrame]
@[simp] theorem writePpmFrame_frame : (writePpmFrame g).frame = g.frame := by simp only [writePpmFrame]
@[simp] theorem writePpmFrame_syncMin : (writePpmFrame g).syncMin = g.syncMin := by simp only [writePpmFrame]
@[simp] theorem writePpmFrame_sync : (writePpmFrame g).sync = toField 16 (syncGap g) := by simp only [writePpmFrame]
@[simp] theorem writePpmFrame_total : (writePpmFrame g).total = toField 22 (channelTime g) := by simp only [writePpmFrame]
@[simp] theorem writePpmFrame_slots : (writePpmFrame g).slots = g.slots := by simp only [writePpmFrame]
@[simp] theorem writePpmFrame_high : (writePpmFrame g).high = Vector.ofFn (highField g) := by simp only [writePpmFrame]
@[simp] theorem writePpmFrame_low : (writePpmFrame g).low = Vector.ofFn (lowField g) := by simp only [writePpmFrame]
@[simp] theorem writePpmFrame_sbusVal : (writePpmFrame g).sbusVal = g.sbusVal := by simp only [writePpmFrame]
@[simp] theorem writePpmFrame_sbusFrame : (writePpmFrame g).sbusFrame = g.sbusFrame := by simp only [writePpmFrame]

@[simp] theorem writeSbusFrame_mode (p : Params) : (writeSbusFrame p g).mode = g.mode := by simp only [writeSbusFrame]
@[simp] theorem writeSbusFrame_err (p : Params) : (writeSbusFrame p g).err = g.err := by simp only [writeSbusFrame]
@[simp] theorem writeSbusFrame_errCode (p : Params) : (writeSbusFrame p g).errCode = g.errCode := by simp only [writeSbusFrame]
@[simp] theorem writeSbusFrame_ppmValid (p : Params) : (writeSbusFrame p g).ppmValid = g.ppmValid := by simp only [writeSbusFrame]
@[simp] theorem writeSbusFrame_sbusValid (p : Params) : (writeSbusFrame p g).sbusValid = g.sbusValid := by simp only [writeSbusFrame]
@[simp] theorem writeSbusFrame_nch (p : Params) : (writeSbusFrame p g).nch = g.nch := by simp only [writeSbusFrame]
@[simp] theorem writeSbusFrame_gap (p : Params) : (writeSbusFrame p g).gap = g.gap := by simp only [writeSbusFrame]
@[simp] theorem writeSbusFrame_minActive (p : Params) : (writeSbusFrame p g).minActive = g.minActive := by simp only [writeSbusFrame]
@[simp] theorem writeSbusFrame_frame (p : Params) : (writeSbusFrame p g).frame = g.frame := by simp only [writeSbusFrame]
@[simp] theorem writeSbusFrame_syncMin (p : Params) : (writeSbusFrame p g).syncMin = g.syncMin := by simp only [writeSbusFrame]
@[simp] theorem writeSbusFrame_sync (p : Params) : (writeSbusFrame p g).sync = g.sync := by simp only [writeSbusFrame]
@[simp] theorem writeSbusFrame_total (p : Params) : (writeSbusFrame p g).total = g.total := by simp only [writeSbusFrame]
@[simp] theorem writeSbusFrame_slots (p : Params) : (writeSbusFrame p g).slots = g.slots := by simp only [writeSbusFrame]
@[simp] theorem writeSbusFrame_high (p : Params) : (writeSbusFrame p g).high = g.high := by simp only [writeSbusFrame]
@[simp] theorem writeSbusFrame_low (p : Params) : (writeSbusFrame p g).low = g.low := by simp only [writeSbusFrame]
@[simp] theorem writeSbusFrame_sbusVal (p : Params) : (writeSbusFrame p g).sbusVal = Vector.ofFn (sbusValue p g) := by simp only [writeSbusFrame]
@[simp] theorem writeSbusFrame_sbusFrame (p : Params) : (writeSbusFrame p g).sbusFrame = frameOf (Vector.ofFn (sbusValue p g)) := by simp only [writeSbusFrame]

/-- Replacing the registers by themselves is nothing. -/
@[simp] theorem State.withRegs_self : s.withRegs s.regs = s := rfl

/-- Only the last replacement of the registers counts. -/
@[simp] theorem State.withRegs_withRegs (g' : Regs) : (s.withRegs g).withRegs g' = s.withRegs g' := rfl

/-- Replacing the ports by themselves is nothing. -/
@[simp] theorem State.withPort_self : s.withPort s.port = s := rfl

end Sys2Proof.Machine
end

