-- ==== Sys2Proof/Laws/Ops.lean ====
section
/-! SUPPORT. What each shared operation and each command does, said once, for the proofs to cite instead of unfolding
it. -/

namespace Sys2Proof.Machine

/-! ### Slots -/

/-- The slot just written reads back. -/
@[simp] theorem setSlot_same (c : SlotIndex) (x : Slot) (g : Regs) : (setSlot c x g).slots[c] = x := by
  simp [setSlot]

/-- The other slots keep their contents. -/
theorem setSlot_other {c d : SlotIndex} (x : Slot) (g : Regs) (h : d ≠ c) : (setSlot c x g).slots[d] = g.slots[d] := by
  have : c.val ≠ d.val := fun e => h (Fin.ext e.symm)
  simp [setSlot, this]

/-- Writing slots `c` and then `d` is writing `d` and then `c`. -/
theorem setSlot_comm {c d : SlotIndex} (x y : Slot) (g : Regs) (h : d ≠ c) :
    setSlot d y (setSlot c x g) = setSlot c x (setSlot d y g) := by
  have : c.val ≠ d.val := fun e => h (Fin.ext e.symm)
  simp [setSlot, Vector.set_comm _ _ this]

/-- `setPulse` writes the pulse of its slot and nothing else. -/
theorem setPulse_eq (c : SlotIndex) (v : BitVec 16) (g : Regs) :
    setPulse c v g = { g with slots := g.slots.set c.val { g.slots[c] with pulse := v } } := rfl

/-- `shapeSlot` writes the pulse of its slot and nothing else. -/
theorem shapeSlot_eq (p : Params) (c : SlotIndex) (g : Regs) :
    shapeSlot p c g = setSlot c { g.slots[c] with pulse := toField 16 (shape p g.slots[c]) } g := rfl

/-- The curve engine does not read the pulse it writes (R109). -/
@[simp] theorem shape_pulse (p : Params) (x : Slot) (v : BitVec 16) : shape p { x with pulse := v } = shape p x := rfl

/-- What `shapeSlots` leaves in a slot: its own shape where it is listed, its old contents where not (R117). -/
theorem shapeSlots_slot (p : Params) (cs : List SlotIndex) (g : Regs) (d : SlotIndex) :
    (shapeSlots p cs g).slots[d] =
      if d ∈ cs then { g.slots[d] with pulse := toField 16 (shape p g.slots[d]) } else g.slots[d] := by
  induction cs generalizing g with
  | nil => simp [shapeSlots]
  | cons c cs ih =>
    have step : shapeSlots p (c :: cs) g = shapeSlots p cs (shapeSlot p c g) := rfl
    rw [step, ih, shapeSlot_eq]
    by_cases h : d = c
    · subst h; simp
    · simp only [setSlot_other _ _ h, List.mem_cons, h, false_or]

/-- `shapeSlots` changes the slots and nothing else. -/
theorem shapeSlots_eq (p : Params) (cs : List SlotIndex) (g : Regs) :
    shapeSlots p cs g = { g with slots := (shapeSlots p cs g).slots } := by
  induction cs generalizing g with
  | nil => rfl
  | cons c cs ih =>
    have step : shapeSlots p (c :: cs) g = shapeSlots p cs (shapeSlot p c g) := rfl
    rw [step]
    exact ih (shapeSlot p c g)

/-- What SHAPE_ALL leaves in each slot (R117). -/
theorem shapeEvery_slot (p : Params) (g : Regs) (d : SlotIndex) :
    (shapeEvery p g).slots[d] = { g.slots[d] with pulse := toField 16 (shape p g.slots[d]) } := by
  rw [shapeEvery, shapeSlots_slot, if_pos (List.mem_finRange d)]

/-- SHAPE_ALL changes the slots and nothing else. -/
theorem shapeEvery_eq (p : Params) (g : Regs) :
    shapeEvery p g = { g with slots := (shapeEvery p g).slots } := shapeSlots_eq p _ g

/-! ### Commands -/

/-- What a command does to the registers. -/
def effect (i : Instr) (p : Params) (g : Regs) : Regs :=
  match i with
  | .nop => g
  | .shape c => shapeSlot p c g
  | .shapeAll => shapeEvery p g
  | .encPpm => encodePpm g
  | .encSbus => encodeSbus p g
  | .cycle => encodeSelected p (shapeEvery p g)
  | .softReset => Regs.reset p

/-- Every command answers a next state, in which only the registers have changed. -/
theorem exec_eq (i : Instr) (s : State) : exec i s = .next (s.withRegs (effect i s.params s.regs)) := by
  cases i <;> rfl

/-- Commands run in turn: the first, then the others on what it leaves. -/
theorem inTurn_cons (i : Instr) (is : List Instr) (s : State) :
    inTurn (i :: is) s = inTurn is (s.withRegs (effect i s.params s.regs)) := by
  simp only [inTurn, exec_eq]

/-- ENC_PPM on a legal channel count (R134). -/
theorem encodePpm_legal {g : Regs} (h : NchLegal g) : encodePpm g = markPpmValid (writePpmFrame g) := if_pos h

/-- ENC_PPM on any other count (R202). -/
theorem encodePpm_bad {g : Regs} (h : ¬NchLegal g) :
    encodePpm g = { g with ppmValid := 0, err := 1, errCode := 2 } := if_neg h

/-- What a write of a whole word at an address does to the registers, the command at CMD included (R65, R84). -/
def writeEffect (p : Params) (a : Nat) (v : Word) (g : Regs) : Regs :=
  if a = cmdAddr then
    match decode v with
    | .ok i => effect i p g
    | .error _ => raiseError .illegalCmd g
  else writeAddr a v g

/-- `Execute(v)` answers a next state, in which only the registers have changed (R84). -/
theorem execute_eq (v : Word) (s : State) :
    execute v s = .next (s.withRegs (writeEffect s.params cmdAddr v s.regs)) := by
  unfold execute writeEffect
  rw [if_pos rfl]
  cases decode v with
  | ok i => exact exec_eq i s
  | error e => rfl

/-- A write answers a next state, in which only the registers have changed (R65). -/
theorem memWrite_eq (a : Nat) (v : Word) (s : State) :
    memWrite a v s = .next (s.withRegs (writeEffect s.params a v s.regs)) := by
  unfold memWrite
  by_cases h : a = cmdAddr
  · rw [if_pos h, h]; exact execute_eq v s
  · rw [if_neg h]; simp [writeEffect, h]

/-- A transaction the bus carries is a read or a write of one word inside the window (R61). -/
theorem wellFormed_iff (t : Txn) : t.problem = none ↔ t.size = 4 ∧ t.addr % 4 = 0 ∧ t.addr < 0x1000 := by
  unfold Txn.problem
  split_ifs <;> simp <;> omega

/-- What a whole transaction does to the state. -/
def txnEffect (t : Txn) (s : State) : State :=
  match t with
  | .read a _ => s.logRead (readAddr a s.regs)
  | .write a _ v => s.withRegs (writeEffect s.params a v s.regs)

/-- A transaction the bus carries performs. -/
theorem perform_wellFormed {t : Txn} (h : t.problem = none) (s : State) : perform t s = .next (txnEffect t s) := by
  unfold perform
  rw [h]
  cases t with
  | read a n => rfl
  | write a n v => exact memWrite_eq a v s

/-- A transaction the bus does not carry is refused. -/
theorem perform_problem {t : Txn} {why : TxnProblem} (h : t.problem = some why) (s : State) :
    perform t s = .refused (.notOnBus why) := by
  unfold perform
  rw [h]

/-- What the ports ask for is always a transaction the bus carries (R60, R75). -/
theorem portTxn_wellFormed (we : Bool) (wa : BitVec 10) (wdata : Word) : (portTxn we wa wdata).problem = none := by
  have := wa.isLt
  rw [wellFormed_iff]
  cases we <;> simp [portTxn, Txn.size, Txn.addr] <;> omega

/-- The edge at which an open transaction closes performs it. -/
theorem closeTxn_eq (o : OpenTxn) (s : State) :
    closeTxn o s = .next (txnEffect (portTxn o.we o.wa o.wdata)
      (s.withPort (closePort o (readAddr (4 * o.wa.toNat) s.regs) s.port))) := by
  unfold closeTxn
  rw [perform_wellFormed (portTxn_wellFormed _ _ _)]
  cases h : o.we <;> simp [portTxn, Txn.addr]

end Sys2Proof.Machine
end

