-- ==== Sys2Proof/Laws/Frames.lean ====
section
/-! SUPPORT. What the curve engine and the encoders leave unchanged, field by field, so that no proof unfolds them to see
it; and the window: what a register's write does to the reading of the others. -/

namespace Sys2Proof.Machine

variable (p : Params) (g : Regs)

/-! ### SHAPE and SHAPE_ALL change the slots only -/

@[simp] theorem shapeSlot_mode (c : SlotIndex) : (shapeSlot p c g).mode = g.mode := rfl
@[simp] theorem shapeSlot_err (c : SlotIndex) : (shapeSlot p c g).err = g.err := rfl
@[simp] theorem shapeSlot_errCode (c : SlotIndex) : (shapeSlot p c g).errCode = g.errCode := rfl
@[simp] theorem shapeSlot_ppmValid (c : SlotIndex) : (shapeSlot p c g).ppmValid = g.ppmValid := rfl
@[simp] theorem shapeSlot_sbusValid (c : SlotIndex) : (shapeSlot p c g).sbusValid = g.sbusValid := rfl
@[simp] theorem shapeSlot_nch (c : SlotIndex) : (shapeSlot p c g).nch = g.nch := rfl
@[simp] theorem shapeSlot_gap (c : SlotIndex) : (shapeSlot p c g).gap = g.gap := rfl
@[simp] theorem shapeSlot_minActive (c : SlotIndex) : (shapeSlot p c g).minActive = g.minActive := rfl
@[simp] theorem shapeSlot_frame (c : SlotIndex) : (shapeSlot p c g).frame = g.frame := rfl
@[simp] theorem shapeSlot_syncMin (c : SlotIndex) : (shapeSlot p c g).syncMin = g.syncMin := rfl
@[simp] theorem shapeSlot_sync (c : SlotIndex) : (shapeSlot p c g).sync = g.sync := rfl
@[simp] theorem shapeSlot_total (c : SlotIndex) : (shapeSlot p c g).total = g.total := rfl
@[simp] theorem shapeSlot_high (c : SlotIndex) : (shapeSlot p c g).high = g.high := rfl
@[simp] theorem shapeSlot_low (c : SlotIndex) : (shapeSlot p c g).low = g.low := rfl
@[simp] theorem shapeSlot_sbusVal (c : SlotIndex) : (shapeSlot p c g).sbusVal = g.sbusVal := rfl
@[simp] theorem shapeSlot_sbusFrame (c : SlotIndex) : (shapeSlot p c g).sbusFrame = g.sbusFrame := rfl

@[simp] theorem shapeSlots_mode (cs : List SlotIndex) : (shapeSlots p cs g).mode = g.mode := by rw [shapeSlots_eq]
@[simp] theorem shapeSlots_err (cs : List SlotIndex) : (shapeSlots p cs g).err = g.err := by rw [shapeSlots_eq]
@[simp] theorem shapeSlots_errCode (cs : List SlotIndex) : (shapeSlots p cs g).errCode = g.errCode := by rw [shapeSlots_eq]
@[simp] theorem shapeSlots_ppmValid (cs : List SlotIndex) : (shapeSlots p cs g).ppmValid = g.ppmValid := by rw [shapeSlots_eq]
@[simp] theorem shapeSlots_sbusValid (cs : List SlotIndex) : (shapeSlots p cs g).sbusValid = g.sbusValid := by rw [shapeSlots_eq]
@[simp] theorem shapeSlots_nch (cs : List SlotIndex) : (shapeSlots p cs g).nch = g.nch := by rw [shapeSlots_eq]
@[simp] theorem shapeSlots_gap (cs : List SlotIndex) : (shapeSlots p cs g).gap = g.gap := by rw [shapeSlots_eq]
@[simp] theorem shapeSlots_minActive (cs : List SlotIndex) : (shapeSlots p cs g).minActive = g.minActive := by rw [shapeSlots_eq]
@[simp] theorem shapeSlots_frame (cs : List SlotIndex) : (shapeSlots p cs g).frame = g.frame := by rw [shapeSlots_eq]
@[simp] theorem shapeSlots_syncMin (cs : List SlotIndex) : (shapeSlots p cs g).syncMin = g.syncMin := by rw [shapeSlots_eq]
@[simp] theorem shapeSlots_sync (cs : List SlotIndex) : (shapeSlots p cs g).sync = g.sync := by rw [shapeSlots_eq]
@[simp] theorem shapeSlots_total (cs : List SlotIndex) : (shapeSlots p cs g).total = g.total := by rw [shapeSlots_eq]
@[simp] theorem shapeSlots_high (cs : List SlotIndex) : (shapeSlots p cs g).high = g.high := by rw [shapeSlots_eq]
@[simp] theorem shapeSlots_low (cs : List SlotIndex) : (shapeSlots p cs g).low = g.low := by rw [shapeSlots_eq]
@[simp] theorem shapeSlots_sbusVal (cs : List SlotIndex) : (shapeSlots p cs g).sbusVal = g.sbusVal := by rw [shapeSlots_eq]
@[simp] theorem shapeSlots_sbusFrame (cs : List SlotIndex) : (shapeSlots p cs g).sbusFrame = g.sbusFrame := by rw [shapeSlots_eq]

@[simp] theorem shapeEvery_mode : (shapeEvery p g).mode = g.mode := by rw [shapeEvery, shapeSlots_mode]
@[simp] theorem shapeEvery_err : (shapeEvery p g).err = g.err := by rw [shapeEvery, shapeSlots_err]
@[simp] theorem shapeEvery_errCode : (shapeEvery p g).errCode = g.errCode := by rw [shapeEvery, shapeSlots_errCode]
@[simp] theorem shapeEvery_ppmValid : (shapeEvery p g).ppmValid = g.ppmValid := by rw [shapeEvery, shapeSlots_ppmValid]
@[simp] theorem shapeEvery_sbusValid : (shapeEvery p g).sbusValid = g.sbusValid := by rw [shapeEvery, shapeSlots_sbusValid]
@[simp] theorem shapeEvery_nch : (shapeEvery p g).nch = g.nch := by rw [shapeEvery, shapeSlots_nch]
@[simp] theorem shapeEvery_gap : (shapeEvery p g).gap = g.gap := by rw [shapeEvery, shapeSlots_gap]
@[simp] theorem shapeEvery_minActive : (shapeEvery p g).minActive = g.minActive := by rw [shapeEvery, shapeSlots_minActive]
@[simp] theorem shapeEvery_frame : (shapeEvery p g).frame = g.frame := by rw [shapeEvery, shapeSlots_frame]
@[simp] theorem shapeEvery_syncMin : (shapeEvery p g).syncMin = g.syncMin := by rw [shapeEvery, shapeSlots_syncMin]
@[simp] theorem shapeEvery_sync : (shapeEvery p g).sync = g.sync := by rw [shapeEvery, shapeSlots_sync]
@[simp] theorem shapeEvery_total : (shapeEvery p g).total = g.total := by rw [shapeEvery, shapeSlots_total]
@[simp] theorem shapeEvery_high : (shapeEvery p g).high = g.high := by rw [shapeEvery, shapeSlots_high]
@[simp] theorem shapeEvery_low : (shapeEvery p g).low = g.low := by rw [shapeEvery, shapeSlots_low]
@[simp] theorem shapeEvery_sbusVal : (shapeEvery p g).sbusVal = g.sbusVal := by rw [shapeEvery, shapeSlots_sbusVal]
@[simp] theorem shapeEvery_sbusFrame : (shapeEvery p g).sbusFrame = g.sbusFrame := by rw [shapeEvery, shapeSlots_sbusFrame]

/-! ### ENC_PPM, whatever its channel count, changes the PPM registers and STATUS only -/

@[simp] theorem encodePpm_mode : (encodePpm g).mode = g.mode := by
  by_cases h : NchLegal g
  · simp [encodePpm_legal h]
  · rw [encodePpm_bad h]
@[simp] theorem encodePpm_sbusValid : (encodePpm g).sbusValid = g.sbusValid := by
  by_cases h : NchLegal g
  · simp [encodePpm_legal h]
  · rw [encodePpm_bad h]
@[simp] theorem encodePpm_nch : (encodePpm g).nch = g.nch := by
  by_cases h : NchLegal g
  · simp [encodePpm_legal h]
  · rw [encodePpm_bad h]
@[simp] theorem encodePpm_gap : (encodePpm g).gap = g.gap := by
  by_cases h : NchLegal g
  · simp [encodePpm_legal h]
  · rw [encodePpm_bad h]
@[simp] theorem encodePpm_minActive : (encodePpm g).minActive = g.minActive := by
  by_cases h : NchLegal g
  · simp [encodePpm_legal h]
  · rw [encodePpm_bad h]
@[simp] theorem encodePpm_frame : (encodePpm g).frame = g.frame := by
  by_cases h : NchLegal g
  · simp [encodePpm_legal h]
  · rw [encodePpm_bad h]
@[simp] theorem encodePpm_syncMin : (encodePpm g).syncMin = g.syncMin := by
  by_cases h : NchLegal g
  · simp [encodePpm_legal h]
  · rw [encodePpm_bad h]
@[simp] theorem encodePpm_slots : (encodePpm g).slots = g.slots := by
  by_cases h : NchLegal g
  · simp [encodePpm_legal h]
  · rw [encodePpm_bad h]
@[simp] theorem encodePpm_sbusVal : (encodePpm g).sbusVal = g.sbusVal := by
  by_cases h : NchLegal g
  · simp [encodePpm_legal h]
  · rw [encodePpm_bad h]
@[simp] theorem encodePpm_sbusFrame : (encodePpm g).sbusFrame = g.sbusFrame := by
  by_cases h : NchLegal g
  · simp [encodePpm_legal h]
  · rw [encodePpm_bad h]

/-! ### ENC_SBUS changes the SBUS registers and SBUS_VALID only -/

@[simp] theorem encodeSbus_mode : (encodeSbus p g).mode = g.mode := by simp only [encodeSbus, markSbusValid_mode, writeSbusFrame_mode]
@[simp] theorem encodeSbus_err : (encodeSbus p g).err = g.err := by simp only [encodeSbus, markSbusValid_err, writeSbusFrame_err]
@[simp] theorem encodeSbus_errCode : (encodeSbus p g).errCode = g.errCode := by simp only [encodeSbus, markSbusValid_errCode, writeSbusFrame_errCode]
@[simp] theorem encodeSbus_ppmValid : (encodeSbus p g).ppmValid = g.ppmValid := by simp only [encodeSbus, markSbusValid_ppmValid, writeSbusFrame_ppmValid]
@[simp] theorem encodeSbus_nch : (encodeSbus p g).nch = g.nch := by simp only [encodeSbus, markSbusValid_nch, writeSbusFrame_nch]
@[simp] theorem encodeSbus_gap : (encodeSbus p g).gap = g.gap := by simp only [encodeSbus, markSbusValid_gap, writeSbusFrame_gap]
@[simp] theorem encodeSbus_minActive : (encodeSbus p g).minActive = g.minActive := by simp only [encodeSbus, markSbusValid_minActive, writeSbusFrame_minActive]
@[simp] theorem encodeSbus_frame : (encodeSbus p g).frame = g.frame := by simp only [encodeSbus, markSbusValid_frame, writeSbusFrame_frame]
@[simp] theorem encodeSbus_syncMin : (encodeSbus p g).syncMin = g.syncMin := by simp only [encodeSbus, markSbusValid_syncMin, writeSbusFrame_syncMin]
@[simp] theorem encodeSbus_sync : (encodeSbus p g).sync = g.sync := by simp only [encodeSbus, markSbusValid_sync, writeSbusFrame_sync]
@[simp] theorem encodeSbus_total : (encodeSbus p g).total = g.total := by simp only [encodeSbus, markSbusValid_total, writeSbusFrame_total]
@[simp] theorem encodeSbus_slots : (encodeSbus p g).slots = g.slots := by simp only [encodeSbus, markSbusValid_slots, writeSbusFrame_slots]
@[simp] theorem encodeSbus_high : (encodeSbus p g).high = g.high := by simp only [encodeSbus, markSbusValid_high, writeSbusFrame_high]
@[simp] theorem encodeSbus_low : (encodeSbus p g).low = g.low := by simp only [encodeSbus, markSbusValid_low, writeSbusFrame_low]

@[simp] theorem encodeSbus_sbusValid : (encodeSbus p g).sbusValid = 1 := by simp only [encodeSbus, markSbusValid_sbusValid]
@[simp] theorem encodeSbus_sbusVal : (encodeSbus p g).sbusVal = Vector.ofFn (sbusValue p g) := by
  simp only [encodeSbus, markSbusValid_sbusVal, writeSbusFrame_sbusVal]
@[simp] theorem encodeSbus_sbusFrame : (encodeSbus p g).sbusFrame = frameOf (Vector.ofFn (sbusValue p g)) := by
  simp only [encodeSbus, markSbusValid_sbusFrame, writeSbusFrame_sbusFrame]

/-! ### The encoder CYCLE selects -/

/-- With MODE = 0 it is the PPM encoder (R22). -/
theorem encodeSelected_ppm (h : g.mode = 0) : encodeSelected p g = encodePpm g := if_pos h

/-- With MODE = 1 it is the SBUS encoder (R22). -/
theorem encodeSelected_sbus (h : g.mode ≠ 0) : encodeSelected p g = encodeSbus p g := if_neg h

/-! ### The window -/

/-- The STATUS word depends on the flags only. -/
theorem statusWord_congr {g g' : Regs} (h1 : g'.err = g.err) (h2 : g'.errCode = g.errCode)
    (h3 : g'.ppmValid = g.ppmValid) (h4 : g'.sbusValid = g.sbusValid) : statusWord g' = statusWord g := by
  rw [statusWord, statusWord, h1, h2, h3, h4]

/-- What a register reads as after a slot is replaced: as before, unless it shows a field of that slot that changed. -/
theorem readReg_setSlot (c : SlotIndex) (x : Slot) (g : Regs) (r : Reg)
    (hIn : r = .chIn c → x.value = g.slots[c].value) (hCfg : r = .chCfg c → cfgWord x = cfgWord g.slots[c])
    (hTrim : r = .chTrim c → x.trim = g.slots[c].trim) (hPulse : r = .chPulse c → x.pulse = g.slots[c].pulse) :
    readReg r (setSlot c x g) = readReg r g := by
  cases r with
  | status => exact statusWord_congr rfl rfl rfl rfl
  | chIn d =>
    by_cases h : d = c
    · subst h; simp only [readReg, setSlot_same, hIn rfl]
    · simp only [readReg, setSlot_other _ _ h]
  | chCfg d =>
    by_cases h : d = c
    · subst h; simp only [readReg, setSlot_same, hCfg rfl]
    · simp only [readReg, setSlot_other _ _ h]
  | chTrim d =>
    by_cases h : d = c
    · subst h; simp only [readReg, setSlot_same, hTrim rfl]
    · simp only [readReg, setSlot_other _ _ h]
  | chPulse d =>
    by_cases h : d = c
    · subst h; simp only [readReg, setSlot_same, hPulse rfl]
    · simp only [readReg, setSlot_other _ _ h]
  | _ => rfl

/-- Every register stands at an aligned address inside the window (R60, R94). -/
theorem regAddr_inWindow (r : Reg) : regAddr r % 4 = 0 ∧ regAddr r < 0x1000 := by
  cases r <;> simp [regAddr] <;> omega

/-- A write to an address other than CMD does what a write to its register does (R65). -/
theorem writeEffect_of_ne {a : Nat} (h : a ≠ cmdAddr) (v : Word) : writeEffect p a v g = writeAddr a v g := if_neg h

end Sys2Proof.Machine
end

