-- ==== Sys2Proof/Laws/PerInstr.lean ====
section
/-! SUPPORT. Statements made per command, about the command as syntax. -/

namespace Sys2Proof.Laws.CommandWord

/-- The command word of `i` has RSVD = 0 and matches the row of `i` and no other row of the opcode map (R81, R83). -/
def Statement (i : Instr) : Prop :=
  rsvdField (encode i) = 0 ∧ i.row.matches (encode i) = true ∧
    opcodeRows.filter (fun row => row.matches (encode i)) = [i.row]

theorem nop : Statement .nop := by unfold Statement; decide

theorem shape (c : SlotIndex) : Statement (.shape c) := by unfold Statement; revert c; decide

theorem shapeAll : Statement .shapeAll := by unfold Statement; decide

theorem encPpm : Statement .encPpm := by unfold Statement; decide

theorem encSbus : Statement .encSbus := by unfold Statement; decide

theorem cycle : Statement .cycle := by unfold Statement; decide

theorem softReset : Statement .softReset := by unfold Statement; decide

end Sys2Proof.Laws.CommandWord
end

