-- ==== Sys2Proof/Laws/Step.lean ====
section
/-! SUPPORT. What a step can do, said once: every next state is one of five, and which one the state says. -/

namespace Sys2Proof.Machine

/-- What a step that takes the operation `op` from the host's list can leave, when it answers a next state. -/
inductive StepLeaves (s : State) (rest : List HostOp) (t : State) : Prop where
  /-- The `rst` input (R230). -/
  | reset (hr : s.resetsNext = true) (hp : s.performs = none) (e : t = (s.popped rest).resetInput)
  /-- A clock edge at which no transaction closes (R75). -/
  | edge (q : Port) (hr : s.resetsNext = false) (hp : s.performs = none) (e : t = (s.popped rest).withPort q)
  /-- A read, whole or closing at the ports (R64). -/
  | read (q : Port) (a : Nat) (hr : s.resetsNext = false) (hp : s.performs = some (.read a 4))
      (e : t = ((s.popped rest).withPort q).logRead (readAddr a s.regs))
  /-- A write, whole or closing at the ports, and the command at CMD (R65, R84). -/
  | write (q : Port) (a : Nat) (v : Word) (hr : s.resetsNext = false) (hp : s.performs = some (.write a 4 v))
      (e : t = ((s.popped rest).withPort q).withRegs (writeEffect s.params a v s.regs))

/-- Step inversion: a step that answers a next state either has nothing to do, or leaves one of these. -/
theorem step_inversion {s t : State} (h : step s = .next t) :
    (s.pending = [] ∧ t = s) ∨ ∃ op rest, s.pending = op :: rest ∧ StepLeaves s rest t := by
  unfold step stepHost at h
  split at h
  · rename_i hp
    exact .inl ⟨hp, by cases h; rfl⟩
  rename_i op rest hp
  refine .inr ⟨op, rest, hp, ?_⟩
  cases op with
  | txn t' =>
    simp only [runOp, State.popped_port] at h
    split at h
    case h_2 => cases h
    rename_i hport
    have hperf : s.performs = some t' := by simp [State.performs, hp, hport]
    have hres : s.resetsNext = false := by simp [State.resetsNext, hp]
    cases hprob : t'.problem with
    | some why => rw [perform_problem hprob] at h; cases h
    | none =>
      rw [perform_wellFormed hprob] at h
      have hsize := ((wellFormed_iff t').1 hprob).1
      cases h
      cases t' with
      | read a n =>
        obtain rfl : n = 4 := hsize
        exact .read s.port a hres hperf rfl
      | write a n v =>
        obtain rfl : n = 4 := hsize
        exact .write s.port a v hres hperf rfl
  | rst o =>
    have hperf : s.performs = none := by simp [State.performs, hp]
    have hres : s.resetsNext = true := by simp [State.resetsNext, hp]
    cases o with
    | none => cases h; exact .reset hres hperf rfl
    | some t' =>
      simp only [runOp] at h
      split at h
      · cases h; exact .reset hres hperf rfl
      · cases h
  | edge p =>
    simp only [runOp, clockEdge, State.popped_port] at h
    split at h
    · rename_i hrst
      cases h
      exact .reset (by simp [State.resetsNext, hp, hrst]) (by simp [State.performs, hp, hrst]) rfl
    rename_i hrst
    have hres : s.resetsNext = false := by simp [State.resetsNext, hp, hrst]
    split at h
    · rename_i hport
      cases h
      exact .edge _ hres (by simp [State.performs, hp, hrst, hport]) rfl
    rename_i o hport
    split at h
    case isFalse => cases h
    rename_i hheld
    split at h
    · rename_i hleft
      have hperf : s.performs = some (portTxn o.we o.wa o.wdata) := by
        simp [State.performs, hp, hrst, hport, hheld, hleft]
      rw [closeTxn_eq] at h
      cases h
      cases hwe : o.we with
      | false =>
        rw [hwe] at hperf
        exact .read _ (4 * o.wa.toNat) hres hperf rfl
      | true =>
        rw [hwe] at hperf
        exact .write _ (4 * o.wa.toNat) o.wdata hres hperf rfl
    · rename_i n hleft
      cases h
      exact .edge _ hres (by simp [State.performs, hp, hrst, hport, hheld, hleft]) rfl

/-- A step that runs a whole transaction the bus carries, with nothing open at the ports. -/
theorem step_txn {s : State} {rest : List HostOp} {t : Txn} (hport : s.port.opened = none)
    (hp : s.pending = .txn t :: rest) (ht : t.problem = none) : step s = .next (txnEffect t (s.popped rest)) := by
  unfold step stepHost
  rw [hp]
  simp only [runOp, State.popped_port, hport]
  exact perform_wellFormed ht _

end Sys2Proof.Machine
end

