-- ==== Sys2Proof/Laws/Run.lean ====
section
/-! SUPPORT. Runs of several steps taken apart, vectors read by slot, sums over the slots, and what a host write keeps. -/

namespace Sys2Proof.Machine

/-! ### Runs -/

/-- A run of no steps stays where it is. -/
theorem run_zero (s : State) : Sys2Proof.core.run 0 s = .next s := rfl

/-- A run takes its first step and goes on from there. -/
theorem run_step {s t : State} (n : Nat) (h : step s = .next t) :
    Sys2Proof.core.run (n + 1) s = Sys2Proof.core.run n t := by
  have e : Sys2Proof.core.step s = .next t := h
  simp only [Host.Core.run, e]

/-- A run of one step is that step. -/
theorem run_one {s t : State} (h : step s = .next t) : Sys2Proof.core.run 1 s = .next t := run_step 0 h

/-! ### Vectors and sums over the slots -/

/-- Entry `i` of a vector built from a function is the function's value there. -/
theorem ofFn_slot {α : Type} {n : Nat} (f : Fin n → α) (i : Fin n) : (Vector.ofFn f)[i] = f i := by
  simp

/-- Two vectors that agree at every index are equal. -/
theorem vector_ext {α : Type} {n : Nat} {x y : Vector α n} (h : ∀ i : Fin n, x[i] = y[i]) : x = y :=
  Vector.ext fun i hi => h ⟨i, hi⟩

/-- A word put together from four bytes, as a number. -/
theorem toNat_fourBytes (b3 b2 b1 b0 : Byte) :
    (b3 ++ b2 ++ b1 ++ b0 : BitVec 32).toNat =
      2 ^ 24 * b3.toNat + 2 ^ 16 * b2.toNat + 2 ^ 8 * b1.toNat + b0.toNat := by
  have h0 := b0.isLt
  have h1 := b1.isLt
  have h2 := b2.isLt
  simp only [BitVec.toNat_append]
  rw [← Nat.shiftLeft_add_eq_or_of_lt (by omega), ← Nat.shiftLeft_add_eq_or_of_lt (by omega),
    ← Nat.shiftLeft_add_eq_or_of_lt (by omega)]
  simp only [Nat.shiftLeft_eq]
  omega

/-- The sums over the listed slots are sums over all slots. -/
theorem sum_finRange {α : Type} [AddCommMonoid α] (f : SlotIndex → α) :
    ((List.finRange 16).map f).sum = ∑ i : SlotIndex, f i := (Fin.sum_univ_def f).symm

/-- A field read into a bus word keeps its value (R64). -/
theorem toNat_setWidth_word {n : Nat} (v : BitVec n) (h : n ≤ 32) : (v.setWidth 32).toNat = v.toNat := by
  rw [BitVec.toNat_setWidth]
  exact Nat.mod_eq_of_lt (lt_of_lt_of_le v.isLt (Nat.pow_le_pow_right (by decide) h))

/-! ### Errors -/

/-- `raise Error` sets ERR and ERR_CODE and nothing else (R204, R209). -/
theorem raiseError_eq (e : ErrorCause) (g : Regs) : raiseError e g = { g with err := 1, errCode := errorCode e } := rfl

/-- Clearing the error sets ERR and ERR_CODE to 0 and nothing else (R207). -/
theorem clearError_eq (g : Regs) : clearError g = { g with err := 0, errCode := 0 } := rfl

/-! ### Host writes -/

/-- What a register's write keeps: the output registers and the valid flags; the error but for a STATUS write with bit 0
(R65). -/
structure WriteKeeps (g g' : Regs) : Prop where
  ppmValid : g'.ppmValid = g.ppmValid
  sbusValid : g'.sbusValid = g.sbusValid
  high : g'.high = g.high
  low : g'.low = g.low
  total : g'.total = g.total
  sync : g'.sync = g.sync
  sbusVal : g'.sbusVal = g.sbusVal
  sbusFrame : g'.sbusFrame = g.sbusFrame
  error : (g'.err = g.err ∧ g'.errCode = g.errCode) ∨ (g'.err = 0 ∧ g'.errCode = 0)

/-- A write to a register keeps every output register and valid flag (R42, R65). -/
theorem writeReg_keeps (r : Reg) (v : Word) (g : Regs) : WriteKeeps g (writeReg r v g) := by
  cases r
  case status =>
    by_cases h : v.getLsbD 0
    · simp only [writeReg, h, if_true, clearError_eq]
      exact ⟨rfl, rfl, rfl, rfl, rfl, rfl, rfl, rfl, .inr ⟨rfl, rfl⟩⟩
    · simp only [writeReg, h]
      exact ⟨rfl, rfl, rfl, rfl, rfl, rfl, rfl, rfl, .inl ⟨rfl, rfl⟩⟩
  all_goals exact ⟨rfl, rfl, rfl, rfl, rfl, rfl, rfl, rfl, .inl ⟨rfl, rfl⟩⟩

/-- A write to an address keeps every output register and valid flag (R63, R65). -/
theorem writeAddr_keeps (a : Nat) (v : Word) (g : Regs) : WriteKeeps g (writeAddr a v g) := by
  unfold writeAddr
  split
  · exact writeReg_keeps _ v g
  · exact ⟨rfl, rfl, rfl, rfl, rfl, rfl, rfl, rfl, .inl ⟨rfl, rfl⟩⟩

end Sys2Proof.Machine
end

