-- ==== Sys2Proof/Tests/Slice0.lean ====
section
/-! SUPPORT. Tests on fixed values. Expected values are the spec's: the vectors and programs of 95_test_vectors.md, and
tables worked by hand from the rules named. The theorems named test_meets_… show states and operands that meet the
hypotheses of the statements, at the ends of their ranges. -/

namespace Sys2Proof.Tests

open Sys2Proof Sys2Proof.Machine

/-! ### Well-formedness: each check refuses an ill-formed term, and lets the terms beside it pass -/

theorem test_size_refused : (Txn.read 0x004 2).problem = some .badSize := by decide
theorem test_misaligned_refused : (Txn.write 0x006 4 0).problem = some .misaligned := by decide
theorem test_outside_window_refused : (Txn.read 0x1000 4).problem = some .outsideWindow := by decide
theorem test_last_address_carried : (Txn.read 0xFFC 4).WellFormed := by decide
theorem test_host_operation_refused :
    HostOp.wellFormed (.txn (.read 1 4)) = false ∧ HostOp.wellFormed (.rst (some (.read 0 1))) = false ∧
      HostOp.wellFormed (.rst none) = true := by decide
theorem test_limits_refused :
    Params.build? 0 2 = none ∧ Params.build? 988 988 = none ∧ Params.build? 1 65537 = none ∧
      Params.build? 988 2011 = none := by decide
theorem test_limits_built : (Params.build? 1 65535).map pMid = some 32768 ∧
    Params.build? 988 2012 = some Params.default := by decide
theorem test_operands_refused :
    AsmOp.wellFormed (.wr 2 0) = false ∧ AsmOp.wellFormed (.wr 0 (2 ^ 32)) = false ∧
      AsmOp.wellFormed (.rd 0x1000) = false ∧ AsmOp.wellFormed (.shape 16) = false ∧
      AsmOp.wellFormed (.cfg 0 4 0 0) = false ∧ AsmOp.wellFormed (.cfg 0 0 2 0) = false ∧
      AsmOp.wellFormed (.cfg 0 0 0 65536) = false ∧ AsmOp.wellFormed (.input 16 0) = false ∧
      AsmOp.wellFormed (.trim 0 32768) = false ∧ AsmOp.wellFormed (.pulse 0 (2 ^ 32)) = false := by decide

/-! ### Decoding: words written out from the tables of R81 and R83 (RSVD, CH, OP) -/

theorem test_decode_nop : decodeTableWord 32 0b00000000000000000000_0000_00000000 = some .nop := by decide
theorem test_decode_shape : decodeTableWord 32 0b00000000000000000000_1010_00000001 = some (.shape 10) := by decide
theorem test_decode_shapeAll : decodeTableWord 32 0b00000000000000000000_0000_00000010 = some .shapeAll := by decide
theorem test_decode_encPpm : decodeTableWord 32 0b00000000000000000000_0000_00000011 = some .encPpm := by decide
theorem test_decode_encSbus : decodeTableWord 32 0b00000000000000000000_0000_00000100 = some .encSbus := by decide
theorem test_decode_cycle : decodeTableWord 32 0b00000000000000000000_0000_00000101 = some .cycle := by decide
theorem test_decode_softReset : decodeTableWord 32 0b00000000000000000000_0000_00001111 = some .softReset := by decide

/-- The illegal words of vector table L2.5, each by the check of R84 that rejects it. -/
theorem test_decode_illegal :
    [0x00000100#32, 0x00000102#32, 0x0000010F#32].map decode = List.replicate 3 (.error .channelNotZero) ∧
      [0x00000006#32, 0x0000000E#32, 0x00000010#32, 0x000000FF#32].map decode =
        List.replicate 4 (.error .unknownOpcode) ∧
      [0x00001001#32, 0x80000003#32, 0xFFFFFFFF#32].map decode = List.replicate 3 (.error .reservedBits) := by decide

/-! ### Running host programs -/

/-- The state after one step, if there is one. -/
def after (s : State) : Option State :=
  match step s with
  | .next t => some t
  | .fault _ => none
  | .refused _ => none

/-- The machine after reset, with these host operations to come. -/
def withOps (ops : List HostOp) : State := { State.reset with pending := ops }

/-- The state after the steps of a program of assembly operations from reset. -/
def runAsm (ops : List AsmOp) : Option State :=
  match Sys2Proof.core.run ops.length (withOps (assemble ops)) with
  | .next t => some t
  | .fault _ => none
  | .refused _ => none

/-- The values a program reads. -/
def reads (ops : List AsmOp) : Option (List Word) := (runAsm ops).map State.returned

/-- A slot after reset with these fields, as the registers hold them. -/
def slotOf (value : BitVec 16) (kind : BitVec 2) (invert : BitVec 1) (expo trim : BitVec 16) : Slot where
  value := value
  kind := kind
  invert := invert
  expo := expo
  trim := trim
  pulse := 1500

/-- The machine after reset with this slot 0. -/
def withSlot (x : Slot) : State := State.reset.withRegs (setSlot 0 x State.reset.regs)

/-- The machine after reset with this channel count. -/
def withNch (n : BitVec 5) : State := State.reset.withRegs { State.reset.regs with nch := n }

/-- The registers after a command. -/
def regsAfter (i : Instr) (s : State) : Option Regs :=
  match exec i s with
  | .next t => some t.regs
  | .fault _ => none
  | .refused _ => none

/-- The pulse of slot 0 after SHAPE 0. -/
def pulseAfter (x : Slot) : Option Nat := (regsAfter (.shape 0) (withSlot x)).map fun g => g.slots[0].pulse.toNat

/-- R170: a NOP does not clear ERR. -/
theorem test_nop_keeps_error : reads [.wr 0x008 0x106, .nop, .rd 0x004] = some [0x00000011#32] := by decide

/-- Program 6 of L3: an axis at 1/4 expo, -0.5, trim -20 gives 1272 (the rounding of R106 and the trim of R107). -/
theorem test_shape_axis : pulseAfter (slotOf 0xE000 1 0 0x4000 0xFFEC) = some 1272 := by decide

/-- Inverted 0.75 at expo 0.75 (0xC0000005, 0x3000 of L2.1) gives 1242; a tie rounds away from zero; a hat reads by sign. -/
theorem test_shape_inverted_tie_hat :
    pulseAfter (slotOf 0x3000 1 1 0xC000 0) = some 1242 ∧ pulseAfter (slotOf 0xFFF0 1 0 0 0) = some 1499 ∧
      pulseAfter (slotOf 0x8000 3 0 0 0) = some 988 ∧ pulseAfter (slotOf 0xFFFE 2 0 0 0) = some 988 := by decide

/-- R117: SHAPE_ALL shapes the last slot too, whatever PPM_NCH holds. -/
theorem test_shapeAll_last_slot :
    ((regsAfter .shapeAll (State.reset.withRegs
      (setSlot 15 (slotOf 0x4000 1 0 0 0) { State.reset.regs with nch := 1 }))).map fun g => g.slots[15].pulse.toNat) =
      some 2012 := by decide

/-- R134's example with three slots: G, M, F and S at their reset values, host-written pulses (program 5 of L3). -/
theorem test_encPpm_program5 :
    reads [.wr 0x00C 3, .pulse 0 3000, .pulse 1 100, .pulse 2 0, .encPpm, .rd 0x200, .rd 0x208, .rd 0x20C, .rd 0x218,
      .rd 0x024, .rd 0x020] = some [2700#32, 100#32, 300#32, 0#32, 3800#32, 18700#32] := by decide

/-- Vectors P-14 and P-15: no channel or 17 of them record BAD_NCH. -/
theorem test_encPpm_bad :
    reads [.wr 0x00C 0, .encPpm, .rd 0x004, .clrErr, .wr 0x00C 17, .encPpm, .rd 0x004] =
      some [0x00000021#32, 0x00000021#32] := by decide

/-- Program 2 of L3: the all-neutral SBUS frame. -/
theorem test_encSbus_neutral :
    (regsAfter .encSbus State.reset).map (fun g => (g.sbusVal[7], g.sbusFrame)) =
      some (992#11, #v[0x1F03E00F#32, 0x3E07C0F8#32, 0x7C0F81F0#32, 0xF81F03E0#32, 0xF03E07C0#32, 0x007C0F81#32, 0#32]) := by
  decide

/-- Program 5 of L3: pulses outside the limits are clamped by the map. -/
theorem test_encSbus_clamped :
    reads [.pulse 0 3000, .pulse 1 100, .pulse 2 0, .encSbus, .rd 0x340, .rd 0x344] =
      some [0x0567130F#32, 0x3E07C02B#32] := by decide

/-- R171's example: CYCLE at reset values makes the eight-slot frame. -/
theorem test_cycle_ppm : reads [.cycle, .rd 0x004, .rd 0x024, .rd 0x020] =
    some [0x00000100#32, 12000#32, 10500#32] := by decide

/-- Program 7 of L3: CYCLE with a bad channel count has shaped when it fails. -/
theorem test_cycle_bad : reads [.wr 0x00C 31, .pulse 0 5, .cycle, .rd 0x004, .rd 0x10C] =
    some [0x00000021#32, 0x000005DC#32] := by decide

/-- Program 7 of L3: SOFT_RESET restores the configuration too. -/
theorem test_softReset : reads [.wr 0x00C 3, .cfg 0 3 1 65535, .wr 0x008 0x106, .softReset, .rd 0x00C, .rd 0x104,
    .rd 0x004] = some [8#32, 0#32, 0#32] := by decide

/-- The rows of L2.6: stored bits, reserved bits, read-only and reserved addresses. -/
theorem test_register_access :
    reads [.wr 0x104 0xFFFFFFFF, .rd 0x104, .wr 0x010 0x12345, .rd 0x010, .wr 0x020 5, .rd 0x020, .wr 0x35C 5, .rd 0x35C,
      .rd 0x008] = some [0xFFFF0007#32, 0x2345#32, 0#32, 0#32, 0#32] := by decide

/-- R92, R93: lines of text and the transactions they stand for. -/
theorem test_assembly_text :
    parseLine "WR 0x00C, 4            ; PPM_NCH = 4".toList = some (.wr 12 4) ∧
      (parseLine "TRIM 1, -20".toList).map expand = some (.write 0x118 4 0xFFEC) ∧
      parseLine "SHAPE 16".toList = none := by decide

/-- A word placed for the next step is the one that step runs (R83: 0x00000106 is illegal, 0x00000001 is SHAPE 0). -/
theorem test_withFetchWord :
    (after (State.reset.withFetchWord 32 0x106)).map (fun t => (t.regs.errCode, t.pending)) = some (1#4, []) ∧
      (after ((withSlot (slotOf 0x4000 1 0 0 0)).withFetchWord 32 1)).map (fun t => t.regs.slots[0].pulse) =
        some 2012#16 := by decide

/-! ### The hypotheses of the statements can be met -/

/-- The machine after reset, about to perform one transaction. -/
def about (t : Txn) : State := withOps [.txn t]

/-- Nothing is open at the ports after reset, and the transaction is the next operation. -/
theorem about_meets (t : Txn) : (about t).port.opened = none ∧ (about t).pending = .txn t :: [] := ⟨rfl, rfl⟩

theorem test_meets_StepRunsTheDecodedCommand :
    (about (.write 0x008 4 0xF01)).port.opened = none ∧ (about (.write 0x008 4 0xF01)).pending =
      .txn (.write 0x008 4 0xF01) :: [] ∧ decode 0xF01 = .ok (.shape 15) := by decide

theorem test_meets_IllegalWordIsRecordedAndDoesNothingElse :
    (about (.write 0x008 4 0x1001)).port.opened = none ∧ (about (.write 0x008 4 0x1001)).pending =
      .txn (.write 0x008 4 0x1001) :: [] ∧ ∀ row ∈ opcodeRows, 0x1001#32 &&& row.mask ≠ row.pattern := by decide

/-- Both ends of each reserved range, and both transactions. -/
theorem test_meets_ReservedAddressesReadZeroAndIgnoreWrites :
    (∀ a ∈ [0x028, 0x0FC, 0x280, 0x2FC, 0x35C, 0xFFC], a % 4 = 0 ∧
      ((0x028 ≤ a ∧ a ≤ 0x0FC) ∨ (0x280 ≤ a ∧ a ≤ 0x2FC) ∨ (0x35C ≤ a ∧ a ≤ 0xFFC)) ∧
      (about (.read a 4)).port.opened = none ∧ (about (.read a 4)).pending = .txn (.read a 4) :: [] ∧
      (about (.write a 4 7)).port.opened = none ∧ (about (.write a 4 7)).pending = .txn (.write a 4 7) :: []) ∧
      [0x024, 0x100, 0x27C, 0x300, 0x358].all (fun a => (regAt a).isSome) = true := by decide

/-- One read of each register, the indexed ones at their last index. -/
theorem test_meets_ReadReturnsEachFieldAtItsBits :
    ∀ r ∈ [Reg.ctrl, .status, .cmd, .ppmNch, .ppmGap, .ppmMinActive, .ppmFrame, .ppmSyncMin, .ppmSync, .ppmTotal,
      .chIn 15, .chCfg 15, .chTrim 15, .chPulse 15, .ppmHigh 15, .ppmLow 15, .sbusVal 15, .sbusFrame 6],
      (about (.read (regAddr r) 4)).port.opened = none ∧
        (about (.read (regAddr r) 4)).pending = .txn (.read (regAddr r) 4) :: [] ∧
        (after (about (.read (regAddr r) 4))).isSome = true := by decide

/-- One write to each register with RW fields, with its mask. -/
theorem test_meets_WriteToAnRwRegisterReadsBackThroughItsMask :
    ∀ x ∈ [(Reg.ctrl, 0x00000001#32), (.ppmNch, 0x0000001F#32), (.ppmGap, 0x0000FFFF#32), (.ppmMinActive, 0x0000FFFF#32),
      (.ppmFrame, 0x0000FFFF#32), (.ppmSyncMin, 0x0000FFFF#32), (.chIn 0, 0x0000FFFF#32), (.chCfg 15, 0xFFFF0007#32),
      (.chTrim 15, 0x0000FFFF#32), (.chPulse 0, 0x0000FFFF#32)],
      (about (.write (regAddr x.1) 4 0xFFFFFFFF)).pending = .txn (.write (regAddr x.1) 4 0xFFFFFFFF) :: [] ∧
        (about (.write (regAddr x.1) 4 0xFFFFFFFF)).port.opened = none ∧
        (after (about (.write (regAddr x.1) 4 0xFFFFFFFF))).map (fun t => readReg x.1 t.regs) = some x.2 := by decide

/-- One write to each read-only register, at the last index. -/
theorem test_meets_WriteToAReadOnlyRegisterIsIgnored :
    ∀ r ∈ [Reg.ppmSync, .ppmTotal, .ppmHigh 15, .ppmLow 15, .sbusVal 15, .sbusFrame 6],
      (about (.write (regAddr r) 4 0xFFFFFFFF)).pending = .txn (.write (regAddr r) 4 0xFFFFFFFF) :: [] ∧
        (about (.write (regAddr r) 4 0xFFFFFFFF)).port.opened = none ∧
        (r = .ppmSync ∨ r = .ppmTotal ∨ (∃ i, r = .ppmHigh i) ∨ (∃ i, r = .ppmLow i) ∨ (∃ k, r = .sbusVal k) ∨
          ∃ w, r = .sbusFrame w) := by
  intro r h
  simp only [List.mem_cons, List.not_mem_nil, or_false] at h
  rcases h with rfl | rfl | rfl | rfl | rfl | rfl <;> exact ⟨rfl, rfl, by simp⟩

/-- Bit 0 written 1 and written 0. -/
theorem test_meets_StatusWriteClearsTheErrorOnlyWithBitZero :
    ∀ v ∈ [0x00000001#32, 0xFFFFFFFE#32], (about (.write 0x004 4 v)).port.opened = none ∧
      (about (.write 0x004 4 v)).pending = .txn (.write 0x004 4 v) :: [] := fun _ _ => ⟨rfl, rfl⟩

/-- Each way a transaction cannot be carried, and the last address that can. -/
theorem test_meets_TransactionsTheBusCannotCarryAreRefused :
    ∀ t ∈ [Txn.read 0 3, .write 0 5 1, .read 0xFFF 4, .read 0x1000 4, .read 0xFFC 4],
      (about t).port.opened = none ∧ (about t).pending = .txn t :: [] ∧
        ((t.size ≠ 4 ∨ t.addr % 4 ≠ 0 ∨ 0x1000 ≤ t.addr) ↔ t ≠ .read 0xFFC 4) := by decide

theorem test_meets_BlockWithoutTransactionsWaits : State.reset.pending = [] := rfl

/-- The spec's own example of `fdiv`, a tie of each rounding on either side of zero, and a clamp of one point. -/
theorem test_meets_IntegerHelpersAreThoseOfTheRule :
    (0 : Int) < 2 ∧ fdiv (-7) 2 = -4 ∧ rndHaz 3 2 = 2 ∧ rndHaz (-3) 2 = -2 ∧ rndHu 3 2 = 2 ∧ rndHu (-3) 2 = -1 ∧
      (5 : Int) ≤ 5 ∧ clamp 9 5 5 = 5 := by decide

theorem test_meets_AbsentSourceShapesToNeutral :
    (withSlot (slotOf 0x4000 0 1 0x9C40 0x012C)).regs.slots[(0 : SlotIndex)].kind = 0 ∧
      pulseAfter (slotOf 0x4000 0 1 0x9C40 0x012C) = some 1500 := by decide

/-- The ends of the ranges of expo and raw value. -/
theorem test_meets_ShapeStaysInThePulseRange :
    ∀ e ∈ [(0 : Int), 65535], ∀ r ∈ [(-16384 : Int), 16384], 0 ≤ e ∧ e ≤ 65535 ∧ -16384 ≤ r ∧ r ≤ 16384 ∧
      (scaled Params.default (adjusted e r) = 988 ∨ scaled Params.default (adjusted e r) = 2012) := by decide

/-- A raw value whose linear pulse is an integer (R111). -/
theorem test_meets_ExpoZeroIsTheIdentity :
    (2 : Int) ^ 15 ∣ (0x2000 + 16384) * ((Params.default.pMax : Int) - Params.default.pMin) ∧
      scaled Params.default (adjusted 0 0x2000) = 1756 := by decide

theorem test_meets_ExpoKeepsSignAndOrder :
    ∀ e ∈ [(0 : Int), 65535], 0 ≤ e ∧ e ≤ 65535 ∧ (-16384 : Int) < 16384 ∧
      adjusted e (-16384) < adjusted e 16384 := by decide

/-- A source of each kind that is not absent, without trim. -/
theorem test_meets_InversionReflectsThePulseAtTrimZero :
    ∀ k ∈ [1#2, 2#2, 3#2], (slotOf 0x3000 k 0 0xC000 0).kind ≠ 0 ∧ (slotOf 0x3000 k 0 0xC000 0).trim.toInt = 0 := by decide

/-- Two states that differ in a pulse, in another slot and in a global register. -/
theorem test_meets_ShapeReadsItsOwnSlotOnly :
    let s := withSlot (slotOf 0x4000 1 0 0 0)
    let t := s.withRegs { setSlot 1 (slotOf 7 3 1 7 7) (setPulse 0 7 s.regs) with nch := 3 }
    s ≠ t ∧ s.params = t.params ∧ s.regs.slots[(0 : SlotIndex)].value = t.regs.slots[(0 : SlotIndex)].value ∧
      s.regs.slots[(0 : SlotIndex)].kind = t.regs.slots[(0 : SlotIndex)].kind ∧
      s.regs.slots[(0 : SlotIndex)].invert = t.regs.slots[(0 : SlotIndex)].invert ∧
      s.regs.slots[(0 : SlotIndex)].expo = t.regs.slots[(0 : SlotIndex)].expo ∧
      s.regs.slots[(0 : SlotIndex)].trim = t.regs.slots[(0 : SlotIndex)].trim := by decide

/-- The slots from the last to the first. -/
theorem test_meets_ShapeAllIsAnyOrderOfShapes : (List.finRange 16).reverse.Perm (List.finRange 16) :=
  List.reverse_perm _

/-- The least and the greatest legal channel count; the command answers a next state. -/
theorem test_meets_EncPpmWritesTheFrame :
    ∀ n ∈ [1#5, 16#5], 1 ≤ (withNch n).regs.nch.toNat ∧ (withNch n).regs.nch.toNat ≤ 16 := by decide

/-- Pulses of 1500 are at least G + M, and the answer of ENC_PPM is a next state. -/
theorem test_meets_ChannelTimeIsBoundedAndExact :
    (∀ n ∈ [1#5, 16#5], 1 ≤ (withNch n).regs.nch.toNat ∧ (withNch n).regs.nch.toNat ≤ 16 ∧ ∀ i : SlotIndex,
      (withNch n).regs.gap.toNat + (withNch n).regs.minActive.toNat ≤ (withNch n).regs.slots[i].pulse.toNat) ∧
      exec .encPpm (withNch 16) = .next ((withNch 16).withRegs (encodePpm (withNch 16).regs)) := ⟨by decide, rfl⟩

theorem test_meets_PpmFrameLastsTheNominalPeriodOrMore :
    1 ≤ (withNch 1).regs.nch.toNat ∧ (withNch 1).regs.nch.toNat ≤ 16 ∧
      exec .encPpm (withNch 1) = .next ((withNch 1).withRegs (encodePpm (withNch 1).regs)) :=
  ⟨by decide, by decide, rfl⟩

/-- No channel, the first count that is too large, and the largest. -/
theorem test_meets_BadChannelCountIsRecorded :
    ∀ n ∈ [0#5, 17#5, 31#5], ((withNch n).regs.nch.toNat = 0 ∨ 16 < (withNch n).regs.nch.toNat) ∧
      (withNch n).regs.mode = 0 := by decide

/-- The first and the last bit of the stream. -/
theorem test_meets_DataBytesCarryTheBitsInOrder :
    (∃ (k : SlotIndex) (j : Fin 11) (m : Fin 22) (b : Fin 8), k.val = 0 ∧ 11 * k.val + j.val = 8 * m.val + b.val) ∧
      11 * (15 : SlotIndex).val + (10 : Fin 11).val = 8 * (21 : Fin 22).val + (7 : Fin 8).val := by
  exact ⟨⟨0, 0, 0, 0, rfl, rfl⟩, rfl⟩

theorem test_meets_SbusFrameHasItsLayout :
    exec .encSbus State.reset = .next (State.reset.withRegs (encodeSbus Params.default State.reset.regs)) := rfl

theorem test_meets_SbusMapIsBoundedAndMonotone : (-5 : Int) ≤ 70000 ∧ sbusMap Params.default (-5) = 172 ∧
    sbusMap Params.default 70000 = 1811 := by decide

theorem test_meets_CycleInPpmModeShapesThenEncodes :
    ∀ n ∈ [1#5, 16#5], (withNch n).regs.mode = 0 ∧ 1 ≤ (withNch n).regs.nch.toNat ∧
      (withNch n).regs.nch.toNat ≤ 16 := by decide

/-- A state in SBUS mode whose channel count ENC_PPM would not take. -/
def inSbusMode : State := State.reset.withRegs { State.reset.regs with mode := 1, nch := 0 }

theorem test_meets_CycleInSbusModeShapesThenEncodes : inSbusMode.regs.mode = 1 := by decide

/-- The levels of an idle bus with `rst` at 1. -/
def rstEdge : PortIn := { rst := true, sel := false, we := false, wa := 0, wdata := 0 }

/-- Each of the three forms of the `rst` input. -/
theorem test_meets_ResetSetsEveryRegister :
    ∀ op ∈ [HostOp.edge rstEdge, .rst none, .rst (some (.write 0x008 4 5))], (withOps [op]).pending = op :: [] ∧
      (op = .edge rstEdge ∧ rstEdge.rst = true ∨ op = .rst none ∨
        op = .rst (some (.write 0x008 4 5)) ∧ (Txn.write 0x008 4 5).problem = none) := by decide

/-- A recorded error about to be cleared, kept, and reset. -/
def withError (op : HostOp) : State :=
  { withOps [op] with regs := raiseError .badNch State.reset.regs }

theorem test_meets_ErrorIsClearedOnlyByItsThreeWays :
    ∀ x ∈ [(HostOp.txn (.write 0x004 4 1), 0#1, 0#4), (.txn (.write 0x004 4 0xFFFFFFFE), 1, 2),
      (.txn (.write 0x008 4 0xF), 0, 0), (.rst none, 0, 0), (.txn (.write 0x008 4 3), 1, 2), (.txn (.write 0x008 4 6), 1, 1)],
      (withError x.1).regs.err = 1 ∧ (withError x.1).regs.errCode ≠ 0 ∧
        (after (withError x.1)).map (fun t => (t.regs.err, t.regs.errCode)) = some x.2 := by decide

/-- Steps of each clause: reset, SOFT_RESET, a successful ENC_PPM and CYCLE, a failing one, and another write. -/
theorem test_meets_PpmValidChangesOnlyAsItsRuleSays :
    ∀ x ∈ [(HostOp.rst none, 8#5, 0#1), (.txn (.write 0x008 4 0xF), 8, 0), (.txn (.write 0x008 4 3), 16, 1),
      (.txn (.write 0x008 4 5), 1, 1), (.txn (.write 0x008 4 3), 17, 0), (.txn (.write 0x00C 4 0), 8, 0)],
      (after { withNch x.2.1 with pending := [x.1] }).map (fun t => t.regs.ppmValid) = some x.2.2 := by decide

/-- Steps of each clause: reset, SOFT_RESET, ENC_SBUS, CYCLE with MODE = 1, and another write. -/
theorem test_meets_SbusValidChangesOnlyAsItsRuleSays :
    ∀ x ∈ [(HostOp.rst none, 0#1), (.txn (.write 0x008 4 0xF), 0), (.txn (.write 0x008 4 4), 1), (.txn (.write 0x008 4 5), 1),
      (.txn (.write 0x008 4 3), 0)],
      (after { inSbusMode with pending := [x.1] }).map (fun t => t.regs.sbusValid) = some x.2 := by decide

/-- Both modes of CYCLE, at a channel count ENC_PPM takes and at one it does not. -/
theorem test_meets_NoCommandReadsAnOutputRegister :
    (∀ n ∈ [1#5, 16#5], (withNch n).regs.mode = 0 ∧ 1 ≤ (withNch n).regs.nch.toNat ∧ (withNch n).regs.nch.toNat ≤ 16) ∧
      (withNch 17).regs.mode = 0 ∧ 16 < (withNch 17).regs.nch.toNat ∧ inSbusMode.regs.mode = 1 := by decide

/-- The registers after reset are sound, and the step that runs ENC_SBUS answers a next state. -/
theorem test_meets_EveryStepKeepsTheRegistersSound :
    (about (.write 0x008 4 4)).regs.Sound ∧ ∃ t, step (about (.write 0x008 4 4)) = .next t :=
  ⟨⟨by decide, ⟨by decide, 0, by decide⟩, by decide⟩, _, rfl⟩

theorem test_meets_NoStepChangesTheParameters : ∃ t, step (about (.write 0x008 4 0xF)) = .next t := ⟨_, rfl⟩

/-- A program with reads, a write, a command and an `rst` pulse. -/
theorem test_meets_EveryHostProgramEnds :
    (withOps [.txn (.read 0x004 4), .txn (.write 0x008 4 0x106), .rst none, .txn (.read 0xFFC 4)]).ReadyToRun ∧
      readsIn (withOps [.txn (.read 0x004 4), .txn (.write 0x008 4 0x106), .rst none, .txn (.read 0xFFC 4)]).pending = 2 := by
  decide

/-- The levels of a write to PPM_NCH, word address 3. -/
def portWrite : PortIn := { rst := false, sel := true, we := true, wa := 3, wdata := 0x11 }

/-- A host that holds its levels for as long as the block takes. -/
def atPorts (p : PortIn) : State := withOps (List.replicate (portLatency 0 + 1) (.edge p) ++ [.rst none])

theorem test_meets_PortTransactionIsTheWholeTransaction :
    (atPorts portWrite).port.opened = none ∧ portWrite.rst = false ∧ portWrite.sel = true ∧
      (atPorts portWrite).pending =
        List.replicate (portLatency (atPorts portWrite).port.count + 1) (.edge portWrite) ++ [.rst none] :=
  ⟨rfl, rfl, rfl, rfl⟩

/-- A transaction open at the ports, with the given edges still to come before it closes. -/
def openWrite (left : Nat) : OpenTxn := { we := true, wa := 3, wdata := 0x11, left := left }

/-- The machine with that transaction open, about to see this operation. -/
def midTxn (left : Nat) (op : HostOp) : State :=
  { withOps [op] with port := { Port.idle 1 with opened := some (openWrite left) } }

/-- R75: the write performs at the closing edge and not before, and `ready` says so. -/
theorem test_closing_edge :
    (after (midTxn 0 (.edge portWrite))).map (fun t => (t.regs.nch, t.port.ready, t.port.opened)) =
        some (17#5, true, none) ∧
      (after (midTxn 1 (.edge portWrite))).map (fun t => (t.regs.nch, t.port.ready, t.port.opened)) =
        some (8#5, false, some (openWrite 0)) := by decide

theorem test_meets_OverlappingTransactionIsRefused :
    (midTxn 0 (.txn (.read 0 4))).pending = .txn (.read 0 4) :: [] ∧
      (midTxn 0 (.txn (.read 0 4))).port.opened ≠ none := by decide

/-- Each input let go, and all of them held. -/
theorem test_meets_InputsNotHeldAreRefused :
    ∀ x ∈ [(portWrite, true), ({ portWrite with sel := false }, false), ({ portWrite with we := false }, false),
      ({ portWrite with wa := 4 }, false), ({ portWrite with wdata := 0 }, false)],
      (midTxn 0 (.edge x.1)).pending = .edge x.1 :: [] ∧ (midTxn 0 (.edge x.1)).port.opened = some (openWrite 0) ∧
        x.1.rst = false ∧ (after (midTxn 0 (.edge x.1))).isSome = x.2 := by decide

/-- The ends of the operands' ranges. -/
theorem test_meets_PseudoSlotWritesSetTheirFields :
    ∀ o ∈ [AsmOp.cfg 15 3 1 65535, .cfg 0 0 0 0, .trim 15 (-32768), .trim 0 32767, .input 15 (2 ^ 32 - 1), .pulse 0 0],
      o.wellFormed = true ∧ (about (expand o)).port.opened = none ∧
        (about (expand o)).pending = .txn (expand o) :: [] := by decide

end Sys2Proof.Tests
end

section
/-! PROOFS. The integer helpers (R14). Floor division is characterised once, by the products it bounds; the error of
`rnd_hu` follows from that, and the error of `rnd_haz` from that of `rnd_hu`, because the two agree at every `n >= 0` and
`rnd_haz` is odd. -/

namespace Sys2Proof.Machine

/-- The absolute value is the greater of the integer and its opposite. -/
theorem absolute_eq_max (x : Int) : absolute x = max x (-x) := by
  rw [absolute, Int.natCast_natAbs, abs_eq_max_neg]

/-- Floor division is the adjoint of multiplication by the divisor: all that R14 says of it. -/
theorem le_fdiv_iff {d : Int} (q n : Int) (hd : 0 < d) : q ≤ fdiv n d ↔ q * d ≤ n :=
  Int.le_ediv_iff_mul_le hd

/-- The floor of a quotient, times the divisor, is at most the dividend. -/
theorem fdiv_mul_le {d : Int} (n : Int) (hd : 0 < d) : fdiv n d * d ≤ n :=
  (le_fdiv_iff _ n hd).mp le_rfl

/-- One more than the floor of a quotient, times the divisor, is above the dividend. -/
theorem lt_fdiv_add_one_mul {d : Int} (n : Int) (hd : 0 < d) : n < (fdiv n d + 1) * d := by
  have hnot : ¬ fdiv n d + 1 ≤ fdiv n d := by omega
  rw [le_fdiv_iff _ n hd] at hnot
  omega

/-- `rnd_hu` errs by at most half of `d` upward and by less than half downward: to nearest, ties upward. -/
theorem rndHu_error {d : Int} (n : Int) (hd : 0 < d) :
    2 * (rndHu n d * d - n) ≤ d ∧ 2 * (n - rndHu n d * d) < d := by
  have hle : rndHu n d * (2 * d) ≤ 2 * n + d := fdiv_mul_le _ (by omega)
  have hlt : 2 * n + d < (rndHu n d + 1) * (2 * d) := lt_fdiv_add_one_mul _ (by omega)
  constructor <;> linarith

/-- The two roundings agree from zero on: away from zero is upward there. -/
theorem rndHaz_eq_rndHu {n d : Int} (hn : 0 ≤ n) (hd : 0 < d) : rndHaz n d = rndHu n d :=
  rndHaz_of_nonneg hn hd

/-- A quotient of zero is rounded to zero. -/
@[simp] theorem rndHaz_zero (d : Int) : rndHaz 0 d = 0 := by simp [rndHaz, sign]

/-- The error of `rnd_haz` below zero is that of `rnd_hu` at the opposite, turned round: ties go downward there. -/
theorem rndHaz_error_of_neg {n d : Int} (hn : n < 0) (hd : 0 < d) :
    2 * (rndHaz n d * d - n) < d ∧ 2 * (n - rndHaz n d * d) ≤ d := by
  have hodd : rndHaz n d = -rndHu (-n) d := by
    rw [← rndHaz_eq_rndHu (by omega) hd, rndHaz_neg, neg_neg]
  obtain ⟨hup, hdown⟩ := rndHu_error (-n) hd
  rw [hodd]
  constructor <;> linarith

/-- `rnd_haz` errs by at most half of `d`, and at a tie its value lies on the side of `n` away from zero. -/
theorem rndHaz_error {d : Int} (n : Int) (hd : 0 < d) :
    2 * (rndHaz n d * d - n) ≤ d ∧ 2 * (n - rndHaz n d * d) ≤ d ∧
      (2 * (n - rndHaz n d * d) = d → n < 0) ∧ (2 * (rndHaz n d * d - n) = d → 0 < n) := by
  rcases lt_trichotomy n 0 with hneg | rfl | hpos
  · obtain ⟨hup, hdown⟩ := rndHaz_error_of_neg hneg hd
    exact ⟨hup.le, hdown, fun _ => hneg, fun htie => absurd htie hup.ne⟩
  · rw [rndHaz_zero]
    omega
  · obtain ⟨hup, hdown⟩ := rndHu_error n hd
    rw [rndHaz_eq_rndHu hpos.le hd]
    exact ⟨hup, hdown.le, fun htie => absurd htie hdown.ne, fun _ => hpos⟩

/-- Settles O15: the formulas are the definitions, floor division is `le_fdiv_iff`, and the errors of the roundings are
`rndHaz_error` and `rndHu_error`. -/
theorem integerHelpersAreThoseOfTheRule : Obligations.IntegerHelpersAreThoseOfTheRule := by
  refine ⟨fun _ => rfl, absolute_eq_max, fun _ _ _ _ => rfl, fun n d hd => ?_⟩
  have hfloor : fdiv n d * d ≤ n ∧ ∀ q : Int, q * d ≤ n → q ≤ fdiv n d :=
    ⟨fdiv_mul_le n hd, fun q => (le_fdiv_iff q n hd).mpr⟩
  exact ⟨hfloor, rfl, rfl, rndHaz_error n hd, rndHu_error n hd⟩

end Sys2Proof.Machine
end

section
/-! PROOFS. The window (R62 to R64): where `regAt` finds each register and where it finds none, what the two transactions
do to the state, and the words put together from several fields, as numbers. -/

namespace Sys2Proof.Machine

/-! ### The register at an address -/

/-- A slot's number names the slot. -/
@[simp] theorem slotAt_val (c : SlotIndex) : slotAt c.val = c := Fin.ofNat_val_eq_self c

/-- Below 0x100 stand the global registers. -/
theorem regAt_global {a : Nat} (h4 : a % 4 = 0) (h : a < 0x100) : regAt a = globalAt a := by
  rw [regAt, if_neg (by omega), if_pos h]

/-- Channel slot `c` stands at `0x100 + 16 * c`, its registers at their offsets. -/
theorem regAt_channel (c : SlotIndex) {a off : Nat} (ha : a = 0x100 + 16 * c.val + off) (h4 : off % 4 = 0)
    (hoff : off < 16) : regAt a = channelAt c off := by
  have hslot : (a - 0x100) / 16 = c.val := by omega
  have hmod : a % 16 = off := by omega
  rw [regAt, if_neg (by omega), if_neg (by omega), if_pos (by omega), hslot, hmod, slotAt_val]

/-- PPM slot `i` stands at `0x200 + 8 * i`, its registers at their offsets. -/
theorem regAt_ppm (i : SlotIndex) {a off : Nat} (ha : a = 0x200 + 8 * i.val + off) (h4 : off % 4 = 0)
    (hoff : off < 8) : regAt a = ppmAt i off := by
  have hslot : (a - 0x200) / 8 = i.val := by omega
  have hmod : a % 8 = off := by omega
  rw [regAt, if_neg (by omega), if_neg (by omega), if_neg (by omega), if_pos (by omega), hslot, hmod, slotAt_val]

/-- SBUS_VAL[k] stands at `0x300 + 4 * k`. -/
theorem regAt_sbusVal (k : SlotIndex) : regAt (0x300 + 4 * k.val) = some (.sbusVal k) := by
  have hslot : (0x300 + 4 * k.val - 0x300) / 4 = k.val := by omega
  rw [regAt, if_neg (by omega), if_neg (by omega), if_neg (by omega), if_neg (by omega), if_neg (by omega),
    if_pos (by omega), hslot, slotAt_val]

/-- SBUS_FRAME[w] stands at `0x340 + 4 * w`. -/
theorem regAt_sbusFrame (w : Fin 7) : regAt (0x340 + 4 * w.val) = some (.sbusFrame w) := by
  have hword : (0x340 + 4 * w.val - 0x340) / 4 = w.val := by omega
  rw [regAt, if_neg (by omega), if_neg (by omega), if_neg (by omega), if_neg (by omega), if_neg (by omega),
    if_neg (by omega), if_pos (by omega), hword, Fin.ofNat_val_eq_self]

/-- Every register is found at its address (R62, R94). -/
@[simp] theorem regAt_regAddr (r : Reg) : regAt (regAddr r) = some r := by
  cases r with
  | chIn c => exact regAt_channel c (off := 0x0) rfl (by decide) (by decide)
  | chCfg c => exact regAt_channel c (off := 0x4) (by rw [regAddr]; omega) (by decide) (by decide)
  | chTrim c => exact regAt_channel c (off := 0x8) (by rw [regAddr]; omega) (by decide) (by decide)
  | chPulse c => exact regAt_channel c (off := 0xC) (by rw [regAddr]; omega) (by decide) (by decide)
  | ppmHigh i => exact regAt_ppm i (off := 0x0) rfl (by decide) (by decide)
  | ppmLow i => exact regAt_ppm i (off := 0x4) (by rw [regAddr]; omega) (by decide) (by decide)
  | sbusVal k => exact regAt_sbusVal k
  | sbusFrame w => exact regAt_sbusFrame w
  | _ => rfl

/-- Above PPM_TOTAL stands no global register. -/
theorem globalAt_eq_none {a : Nat} (h : 0x028 ≤ a) : globalAt a = none := by
  unfold globalAt
  split
  case h_11 => rfl
  all_goals omega

/-- No register stands in the three reserved ranges (R62). -/
theorem regAt_eq_none_of_reserved {a : Nat} (h4 : a % 4 = 0)
    (h : (0x028 ≤ a ∧ a ≤ 0x0FC) ∨ (0x280 ≤ a ∧ a ≤ 0x2FC) ∨ (0x35C ≤ a ∧ a ≤ 0xFFC)) : regAt a = none := by
  rcases h with ⟨hlo, hhi⟩ | ⟨hlo, hhi⟩ | ⟨hlo, hhi⟩
  · rw [regAt_global h4 (by omega), globalAt_eq_none hlo]
  · rw [regAt, if_neg (by omega), if_neg (by omega), if_neg (by omega), if_neg (by omega), if_pos (by omega)]
  · rw [regAt, if_neg (by omega), if_neg (by omega), if_neg (by omega), if_neg (by omega), if_neg (by omega),
      if_neg (by omega), if_neg (by omega)]

/-- A register's address reads as the register (R64). -/
theorem readAddr_regAddr (r : Reg) (g : Regs) : readAddr (regAddr r) g = readReg r g := by
  rw [readAddr, regAt_regAddr]

/-- An address without a register reads 0 (R63). -/
theorem readAddr_of_none {a : Nat} (h : regAt a = none) (g : Regs) : readAddr a g = 0#32 := by
  rw [readAddr, h]

/-- A write to an address without a register changes no register, and it is no command (R63). -/
theorem writeEffect_of_none {a : Nat} (h : regAt a = none) (p : Params) (v : Word) (g : Regs) :
    writeEffect p a v g = g := by
  have hcmd : a ≠ cmdAddr := by
    rintro rfl
    rw [cmdAddr, regAt_regAddr] at h
    cases h
  rw [writeEffect_of_ne p g hcmd, writeAddr, h]

/-! ### The two transactions as steps -/

/-- A read of the window hands the host the word at the address and changes nothing but the host's two lists (R64). -/
theorem step_read {s : State} {rest : List HostOp} {a : Nat} (hport : s.port.opened = none)
    (hp : s.pending = .txn (.read a 4) :: rest) (h4 : a % 4 = 0) (ha : a < 0x1000) :
    step s = .next { s with pending := rest, returned := s.returned ++ [readAddr a s.regs] } :=
  step_txn hport hp ((wellFormed_iff _).2 ⟨rfl, h4, ha⟩)

/-- A write of the window changes nothing but the host's list and, by its effect, the registers (R65). -/
theorem step_write {s : State} {rest : List HostOp} {a : Nat} {v : Word} (hport : s.port.opened = none)
    (hp : s.pending = .txn (.write a 4 v) :: rest) (h4 : a % 4 = 0) (ha : a < 0x1000) :
    step s = .next { s with pending := rest, regs := writeEffect s.params a v s.regs } :=
  step_txn hport hp ((wellFormed_iff _).2 ⟨rfl, h4, ha⟩)

/-- Settles O8: no register stands at a reserved address, so a read finds 0 there and a write finds nothing to change. -/
theorem reservedAddressesReadZeroAndIgnoreWrites : Obligations.ReservedAddressesReadZeroAndIgnoreWrites := by
  intro s rest a v hport h4 hrange
  have hnone : regAt a = none := regAt_eq_none_of_reserved h4 hrange
  have hwindow : a < 0x1000 := by omega
  constructor
  · intro hp
    rw [step_read hport hp h4 hwindow, readAddr_of_none hnone]
  · intro hp
    rw [step_write hport hp h4 hwindow, writeEffect_of_none hnone]

/-! ### The words of several fields, as numbers -/

/-- Two fields side by side, as a number: the upper one at the width of the lower. -/
theorem toNat_append_add {m n : Nat} (x : BitVec m) (y : BitVec n) :
    (x ++ y).toNat = 2 ^ n * x.toNat + y.toNat := by
  rw [BitVec.toNat_append, ← Nat.shiftLeft_add_eq_or_of_lt y.isLt, Nat.shiftLeft_eq, Nat.mul_comm]

/-- The STATUS word as a number: its flags at their bits (R23). -/
theorem toNat_statusWord (g : Regs) :
    (statusWord g).toNat =
      g.err.toNat + 2 ^ 4 * g.errCode.toNat + 2 ^ 8 * g.ppmValid.toNat + 2 ^ 9 * g.sbusValid.toNat := by
  simp only [statusWord, toNat_append_add, BitVec.toNat_ofNat]
  omega

/-- The CH_CFG word as a number: its fields at their bits (R89). -/
theorem toNat_cfgWord (c : Slot) :
    (cfgWord c).toNat = c.kind.toNat + 2 ^ 2 * c.invert.toNat + 2 ^ 16 * c.expo.toNat := by
  simp only [cfgWord, toNat_append_add, BitVec.toNat_ofNat]
  omega

/-- Settles O9: the step returns the register's word, and its number is that of STATUS, of CH_CFG, of no field at all
(CMD), of a whole word (SBUS_FRAME), or of one field from bit 0. -/
theorem readReturnsEachFieldAtItsBits : Obligations.ReadReturnsEachFieldAtItsBits := by
  intro s rest r hport hp
  obtain ⟨h4, hwindow⟩ := regAddr_inWindow r
  refine ⟨readReg r s.regs, ?_, ?_⟩
  · rw [step_read hport hp h4 hwindow, readAddr_regAddr]
  · cases r with
    | status => exact toNat_statusWord s.regs
    | chCfg c => exact toNat_cfgWord s.regs.slots[c]
    | cmd => rfl
    | sbusFrame w => rfl
    | _ => exact toNat_setWidth_word _ (by decide)

end Sys2Proof.Machine
end

section
/-! PROOFS. The address map as a bijection (R62, R94): every aligned address of the window outside the reserved ranges is
some register's. With `regAt_regAddr` and `regAt_eq_none_of_reserved` this settles what `regAt` answers at each address. -/

namespace Sys2Proof.Machine

/-- The ten words from 0 on are the addresses of the global registers `globalAt` finds there (R62). -/
theorem globalAt_map_regAddr : ∀ k : Fin 10, (globalAt (4 * k.val)).map regAddr = some (4 * k.val) := by decide

/-- Every aligned address up to PPM_TOTAL is that of a global register. -/
theorem exists_regAddr_global {a : Nat} (h4 : a % 4 = 0) (h : a < 0x028) : ∃ r, a = regAddr r := by
  have ha : 4 * (a / 4) = a := by omega
  have hmap := globalAt_map_regAddr ⟨a / 4, by omega⟩
  rw [ha] at hmap
  obtain ⟨r, -, hr⟩ := Option.map_eq_some_iff.1 hmap
  exact ⟨r, hr.symm⟩

/-- Every aligned address of the channel range is that of the channel register with its offset in the slot (R94). -/
theorem exists_regAddr_channel {a : Nat} (h4 : a % 4 = 0) (hlo : 0x100 ≤ a) (hhi : a < 0x200) :
    ∃ r, a = regAddr r := by
  obtain ⟨c, hc⟩ : ∃ c : SlotIndex, c.val = (a - 0x100) / 16 := ⟨⟨_, by omega⟩, rfl⟩
  have hoff : a % 16 = 0x0 ∨ a % 16 = 0x4 ∨ a % 16 = 0x8 ∨ a % 16 = 0xC := by omega
  rcases hoff with h | h | h | h
  · exact ⟨.chIn c, by rw [regAddr]; omega⟩
  · exact ⟨.chCfg c, by rw [regAddr]; omega⟩
  · exact ⟨.chTrim c, by rw [regAddr]; omega⟩
  · exact ⟨.chPulse c, by rw [regAddr]; omega⟩

/-- Every aligned address of the PPM range is that of the PPM_HIGH or the PPM_LOW of its slot (R94). -/
theorem exists_regAddr_ppm {a : Nat} (h4 : a % 4 = 0) (hlo : 0x200 ≤ a) (hhi : a < 0x280) :
    ∃ r, a = regAddr r := by
  obtain ⟨i, hi⟩ : ∃ i : SlotIndex, i.val = (a - 0x200) / 8 := ⟨⟨_, by omega⟩, rfl⟩
  have hoff : a % 8 = 0x0 ∨ a % 8 = 0x4 := by omega
  rcases hoff with h | h
  · exact ⟨.ppmHigh i, by rw [regAddr]; omega⟩
  · exact ⟨.ppmLow i, by rw [regAddr]; omega⟩

/-- Every aligned address of the window outside the three reserved ranges is the address of a register (R62). -/
theorem exists_regAddr {a : Nat} (h4 : a % 4 = 0) (ha : a < 0x1000)
    (hres : ¬ ((0x028 ≤ a ∧ a ≤ 0x0FC) ∨ (0x280 ≤ a ∧ a ≤ 0x2FC) ∨ (0x35C ≤ a ∧ a ≤ 0xFFC))) :
    ∃ r, a = regAddr r := by
  have hrange : a < 0x028 ∨ (0x100 ≤ a ∧ a < 0x200) ∨ (0x200 ≤ a ∧ a < 0x280) ∨ (0x300 ≤ a ∧ a < 0x340) ∨
      (0x340 ≤ a ∧ a < 0x35C) := by omega
  rcases hrange with h | ⟨hlo, hhi⟩ | ⟨hlo, hhi⟩ | ⟨hlo, hhi⟩ | ⟨hlo, hhi⟩
  · exact exists_regAddr_global h4 h
  · exact exists_regAddr_channel h4 hlo hhi
  · exact exists_regAddr_ppm h4 hlo hhi
  · exact ⟨.sbusVal ⟨(a - 0x300) / 4, by omega⟩, by simp only [regAddr]; omega⟩
  · exact ⟨.sbusFrame ⟨(a - 0x340) / 4, by omega⟩, by simp only [regAddr]; omega⟩

/-- A register is found at aligned addresses of the window only. -/
theorem inWindow_of_regAt {a : Nat} {r : Reg} (h : regAt a = some r) : a % 4 = 0 ∧ a < 0x1000 := by
  have h4 : a % 4 = 0 := by
    by_contra hne
    rw [regAt, if_pos hne] at h
    cases h
  refine ⟨h4, ?_⟩
  by_contra hge
  rw [regAt, if_neg (by omega), if_neg (by omega), if_neg (by omega), if_neg (by omega), if_neg (by omega),
    if_neg (by omega), if_neg (by omega)] at h
  cases h

/-- An address holds a register exactly when it is that register's address: `regAt` and `regAddr` are inverse (R94). -/
theorem regAt_eq_some_iff (a : Nat) (r : Reg) : regAt a = some r ↔ a = regAddr r := by
  constructor
  · intro h
    obtain ⟨h4, ha⟩ := inWindow_of_regAt h
    have hnone : regAt a ≠ none := by simp [h]
    obtain ⟨r', rfl⟩ := exists_regAddr h4 ha (mt (regAt_eq_none_of_reserved h4) hnone)
    have hr : r' = r := Option.some.inj ((regAt_regAddr r').symm.trans h)
    rw [hr]
  · rintro rfl
    exact regAt_regAddr r

/-- Settles O7: the listed addresses are `regAddr`'s, where `regAt_regAddr` finds each register; `regAt_eq_some_iff` is
the one-to-one map; and an address outside the reserved ranges is some register's, so it is not empty. -/
theorem registersStandAtTheirAddresses : Obligations.RegistersStandAtTheirAddresses := by
  refine ⟨fun c => ?channels, fun w => regAt_regAddr (.sbusFrame w), ?globals, regAt_eq_some_iff,
    fun a h4 ha => ?reserved⟩
  case channels =>
    exact ⟨regAt_regAddr (.chIn c), regAt_regAddr (.chCfg c), regAt_regAddr (.chTrim c), regAt_regAddr (.chPulse c),
      regAt_regAddr (.ppmHigh c), regAt_regAddr (.ppmLow c), regAt_regAddr (.sbusVal c)⟩
  case globals =>
    exact ⟨regAt_regAddr .ctrl, regAt_regAddr .status, regAt_regAddr .cmd, regAt_regAddr .ppmNch,
      regAt_regAddr .ppmGap, regAt_regAddr .ppmMinActive, regAt_regAddr .ppmFrame, regAt_regAddr .ppmSyncMin,
      regAt_regAddr .ppmSync, regAt_regAddr .ppmTotal⟩
  case reserved =>
    refine ⟨fun hnone => ?_, regAt_eq_none_of_reserved h4⟩
    by_contra hres
    obtain ⟨r, rfl⟩ := exists_regAddr h4 ha hres
    rw [regAt_regAddr] at hnone
    cases hnone

end Sys2Proof.Machine
end

section
/-! PROOFS. The curve engine (R100 to R114), stage by stage: the decode, the expo blend as the raw value times a positive
gain, the scale with its one rounding, and the clamp. The blend and the rounding are odd and keep sign and order, and so
does their composition. -/

namespace Sys2Proof.Machine

/-! ### Decode: the raw value of a slot -/

/-- The decoded raw value of a slot whose source is not absent (R101 to R103). -/
def rawOf (c : Slot) : Int :=
  if c.kind = 1 then axisRaw c.value else if c.kind = 2 then buttonRaw c.value else hatRaw c.value

/-- A KIND field holds one of the four kinds (R33). -/
theorem kind_cases (k : BitVec 2) : k = 0 ∨ k = 1 ∨ k = 2 ∨ k = 3 := by
  revert k
  decide

/-- `Shape(c)` is the neutral pulse for an absent source, and stages 2 to 6 on the raw value for any other (R109). -/
theorem shape_eq (p : Params) (c : Slot) :
    shape p c = if c.kind = 0 then (pMid p : Int) else shapeRaw p c (rawOf c) := by
  rcases kind_cases c.kind with h | h | h | h <;> simp [shape, rawOf, kindOf, h]

/-- An absent source shapes to the neutral pulse (R114). -/
theorem shape_of_absent (p : Params) {c : Slot} (h : c.kind = 0) : shape p c = (pMid p : Int) := by
  rw [shape_eq, if_pos h]

/-- A source that is not absent is decoded and shaped. -/
theorem shape_of_present (p : Params) {c : Slot} (h : c.kind ≠ 0) : shape p c = shapeRaw p c (rawOf c) := by
  rw [shape_eq, if_neg h]

/-- The button is bit 0 of its value: it is pressed exactly at the odd values (R102). -/
theorem buttonRaw_eq (value : BitVec 16) : buttonRaw value = if value.toNat % 2 = 1 then 16384 else -16384 := by
  simp [buttonRaw, BitVec.getLsbD, Nat.testBit_zero]

/-! ### The limits of a build -/

/-- The neutral pulse width as a quotient of integers (R8). -/
theorem pMid_eq (p : Params) : (pMid p : Int) = ((p.pMin : Int) + p.pMax) / 2 := by
  simp [pMid]

/-- The neutral pulse lies as far above P_MIN as it lies below P_MAX (R8). -/
theorem pMin_add_pMax (p : Params) : (p.pMin : Int) + p.pMax = 2 * pMid p := by
  exact_mod_cast (two_mul_pMid p).symm

/-- The pulse range is not empty (R7). -/
theorem pMin_lt_pMax (p : Params) : (p.pMin : Int) < p.pMax := by
  exact_mod_cast p.legal.2.1

/-- A pulse width of a build fits its 16-bit field (R7). -/
theorem pMax_lt (p : Params) : (p.pMax : Int) < 2 ^ 16 := by
  obtain ⟨-, -, hmax, -⟩ := p.legal
  omega

/-! ### The expo blend -/

/-- What the expo blend multiplies the raw value by, in Q2.44 (R105). -/
def gain (e r : Int) : Int := (65536 - e) * 2 ^ 28 + e * r ^ 2

/-- The expo blend is the raw value times its gain (R105). -/
theorem adjusted_eq (e r : Int) : adjusted e r = r * gain e r := by
  rw [adjusted, gain]
  ring

/-- The gain is positive: an expo is below 1.0 (R105). -/
theorem gain_pos {e : Int} (r : Int) (h0 : 0 ≤ e) (h1 : e ≤ 65535) : 0 < gain e r := by
  have hlinear : 0 < (65536 - e) * 2 ^ 28 := by omega
  have hcubic : 0 ≤ e * r ^ 2 := mul_nonneg h0 (sq_nonneg r)
  rw [gain]
  omega

/-- On the raw range the gain is at most 1.0, because the square of a raw value is (R112). -/
theorem gain_le {e r : Int} (h0 : 0 ≤ e) (hlo : -16384 ≤ r) (hhi : r ≤ 16384) : gain e r ≤ 2 ^ 44 := by
  have hsq : r ^ 2 ≤ 16384 ^ 2 := sq_le_sq' hlo hhi
  have hcubic : e * r ^ 2 ≤ e * 16384 ^ 2 := mul_le_mul_of_nonneg_left hsq h0
  rw [gain]
  omega

/-- The expo blend is odd (R113). -/
theorem adjusted_neg (e r : Int) : adjusted e (-r) = -adjusted e r := by
  rw [adjusted, adjusted]
  ring

/-- Without expo the blend is the raw value in Q2.58 (R111). -/
theorem adjusted_zero (r : Int) : adjusted 0 r = r * 2 ^ 44 := by
  rw [adjusted]
  ring

/-- The expo blend keeps the sign of the raw value (R112). -/
theorem sign_adjusted {e : Int} (r : Int) (h0 : 0 ≤ e) (h1 : e ≤ 65535) : sign (adjusted e r) = sign r := by
  rw [adjusted_eq, sign_mul_pos r (gain_pos r h0 h1)]

/-- The absolute value of R14 is the library's. -/
theorem absolute_eq_abs (x : Int) : absolute x = |x| := Int.natCast_natAbs x

/-- The expo blend never enlarges a raw value (R112). -/
theorem absolute_adjusted_le {e r : Int} (h0 : 0 ≤ e) (h1 : e ≤ 65535) (hlo : -16384 ≤ r) (hhi : r ≤ 16384) :
    absolute (adjusted e r) ≤ absolute r * 2 ^ 44 := by
  rw [absolute_eq_abs, absolute_eq_abs]
  calc |adjusted e r| = |r| * gain e r := by rw [adjusted_eq, abs_mul, abs_of_pos (gain_pos r h0 h1)]
    _ ≤ |r| * 2 ^ 44 := mul_le_mul_of_nonneg_left (gain_le h0 hlo hhi) (abs_nonneg r)

/-- The expo blend is strictly increasing: its linear part is, and its cubic part does not decrease (R112). -/
theorem adjusted_strictMono {e : Int} (h0 : 0 ≤ e) (h1 : e ≤ 65535) : StrictMono (adjusted e) := by
  intro r r' hr
  have hcube : r ^ 3 ≤ r' ^ 3 := (Odd.strictMono_pow (by decide) hr).le
  have hcubic : e * r ^ 3 ≤ e * r' ^ 3 := mul_le_mul_of_nonneg_left hcube h0
  have hlinear : (65536 - e) * r < (65536 - e) * r' := mul_lt_mul_of_pos_left hr (by omega)
  rw [adjusted, adjusted]
  omega

/-! ### The scale and its rounding -/

/-- A whole quotient is its own rounding. -/
theorem rndHaz_mul_self {d : Int} (q : Int) (hd : 0 < d) : rndHaz (q * d) d = q := by
  have hone : rndHaz (q * d) (1 * d) = rndHaz q 1 := rndHaz_mul_right q 1 hd
  obtain ⟨hup, hdown, -, -⟩ := rndHaz_error q one_pos
  rw [one_mul] at hone
  omega

/-- The sign is its own sign. -/
theorem sign_sign (n : Int) : sign (sign n) = sign n := by
  simp only [sign]
  split_ifs <;> omega

/-- Rounding does not change the sign, except that it may give 0 (R112). -/
theorem sign_rndHaz (n : Int) {d : Int} (hd : 0 < d) : sign (rndHaz n d) = sign n ∨ rndHaz n d = 0 := by
  have hquot : 0 ≤ fdiv (2 * absolute n + d) (2 * d) :=
    Int.ediv_nonneg (by rw [absolute]; omega) (by omega)
  rcases hquot.eq_or_lt with hzero | hpos
  · right
    rw [rndHaz, ← hzero, mul_zero]
  · left
    rw [rndHaz, sign_mul_pos (sign n) hpos, sign_sign]

/-- The scale keeps order (R112). -/
theorem scaled_mono (p : Params) : Monotone (scaled p) := by
  intro a a' ha
  have hspan : (0 : Int) ≤ (p.pMax : Int) - p.pMin := by linarith [pMin_lt_pMax p]
  exact add_le_add_right (rndHaz_mono (by norm_num) (mul_le_mul_of_nonneg_left ha hspan)) _

/-- The scale is odd about the neutral pulse (R113). -/
theorem scaled_neg (p : Params) (a : Int) : scaled p (-a) = 2 * pMid p - scaled p a := by
  rw [scaled, scaled, mul_neg, rndHaz_neg]
  ring

/-- Full deflection scales to the upper limit. -/
theorem scaled_full (p : Params) : scaled p (2 ^ 58) = p.pMax := by
  have hfull : ((p.pMax : Int) - p.pMin) * 2 ^ 58 = ((p.pMax : Int) - pMid p) * 2 ^ 59 := by
    linarith [pMin_add_pMax p]
  rw [scaled, hfull, rndHaz_mul_self _ (by norm_num)]
  ring

/-- Full deflection the other way scales to the lower limit. -/
theorem scaled_neg_full (p : Params) : scaled p (-2 ^ 58) = p.pMin := by
  rw [scaled_neg, scaled_full]
  linarith [pMin_add_pMax p]

/-- On the raw range the pulse before trim is a pulse width of the build: the scale keeps order, and full deflection goes
to the limits (R110). -/
theorem scaled_adjusted_mem (p : Params) {e r : Int} (h0 : 0 ≤ e) (h1 : e ≤ 65535) (hlo : -16384 ≤ r)
    (hhi : r ≤ 16384) :
    (p.pMin : Int) ≤ scaled p (adjusted e r) ∧ scaled p (adjusted e r) ≤ (p.pMax : Int) := by
  have hraw : |r| ≤ 16384 := abs_le.2 ⟨hlo, hhi⟩
  have hblend := absolute_adjusted_le h0 h1 hlo hhi
  rw [absolute_eq_abs, absolute_eq_abs] at hblend
  obtain ⟨hbelow, habove⟩ := abs_le.1 (show |adjusted e r| ≤ 2 ^ 58 by omega)
  rw [← scaled_neg_full p, ← scaled_full p]
  exact ⟨scaled_mono p hbelow, scaled_mono p habove⟩

/-- Without expo the scale is the linear one, with its rounding at 15 bits (R111). -/
theorem scaled_adjusted_zero (p : Params) (r : Int) :
    scaled p (adjusted 0 r) = (pMid p : Int) + rndHaz (((p.pMax : Int) - p.pMin) * r) (2 ^ 15) := by
  have hscale : rndHaz (((p.pMax : Int) - p.pMin) * r * 2 ^ 44) (2 ^ 15 * 2 ^ 44) =
      rndHaz (((p.pMax : Int) - p.pMin) * r) (2 ^ 15) := rndHaz_mul_right _ _ (by norm_num)
  rw [scaled, adjusted_zero, ← mul_assoc, ← hscale]
  norm_num

/-- Without expo, a whole value of the linear formula is the pulse exactly (R111). -/
theorem scaled_adjusted_zero_of_dvd (p : Params) {r : Int}
    (h : (2 : Int) ^ 15 ∣ (r + 16384) * ((p.pMax : Int) - p.pMin)) :
    2 ^ 15 * (scaled p (adjusted 0 r) - p.pMin) = (r + 16384) * ((p.pMax : Int) - p.pMin) := by
  obtain ⟨q, hq⟩ := h
  have hlimits := pMin_add_pMax p
  have hwhole : ((p.pMax : Int) - p.pMin) * r = (q - (pMid p - p.pMin)) * 2 ^ 15 := by linarith
  rw [scaled_adjusted_zero, hwhole, rndHaz_mul_self _ (by norm_num), hq]
  ring

/-- The default build takes one microsecond of each 32 steps of the raw value (R111). -/
theorem scaled_default_adjusted_zero (r : Int) : scaled Params.default (adjusted 0 r) = 1500 + rndHaz r 32 := by
  have hmid : (pMid Params.default : Int) = 1500 := rfl
  have hspan : ((Params.default.pMax : Int) - Params.default.pMin) * r = r * 1024 := by
    norm_num [Params.default, mul_comm]
  have hscale : rndHaz (r * 1024) (32 * 1024) = rndHaz r 32 := rndHaz_mul_right _ _ (by norm_num)
  rw [scaled_adjusted_zero, hmid, hspan, ← hscale]
  norm_num

/-! ### Inversion and saturation -/

/-- Flipping INVERT takes the opposite of the value (R104). -/
theorem inverted_not (b : BitVec 1) (r0 : Int) : inverted (~~~b) r0 = -inverted b r0 := by
  have hbit : b = 0 ∨ b = 1 := by
    revert b
    decide
  rcases hbit with rfl | rfl <;> simp [inverted]

/-- Flipping INVERT reflects the pulse before trim about the neutral pulse (R113). -/
theorem scaled_adjusted_not (p : Params) (e r0 : Int) (b : BitVec 1) :
    scaled p (adjusted e (inverted (~~~b) r0)) = 2 * pMid p - scaled p (adjusted e (inverted b r0)) := by
  rw [inverted_not, adjusted_neg, scaled_neg]

/-- A clamp between limits that lie evenly about a point keeps the reflection about it. -/
theorem clamp_reflect {lo hi m : Int} (x : Int) (h : lo + hi = 2 * m) (hle : lo ≤ hi) :
    clamp (2 * m - x) lo hi = 2 * m - clamp x lo hi := by
  rw [clamp, clamp]
  omega

/-- The result of the curve engine is a pulse width of the build (R110). -/
theorem shape_mem (p : Params) (c : Slot) : (p.pMin : Int) ≤ shape p c ∧ shape p c ≤ (p.pMax : Int) := by
  have hlt := pMin_lt_pMax p
  rw [shape_eq]
  split
  · have hmid := pMin_add_pMax p
    omega
  · exact ⟨le_clamp _ _ _, clamp_le _ hlt.le⟩

/-- CH_PULSE holds the result of the curve engine without truncation (R110). -/
theorem toNat_toField_shape (p : Params) (c : Slot) : ((toField 16 (shape p c)).toNat : Int) = shape p c := by
  obtain ⟨hlo, hhi⟩ := shape_mem p c
  exact toNat_toField (by omega) (hhi.trans_lt (pMax_lt p))

/-- SHAPE changes the pulse of its slot and nothing else (R116). -/
theorem exec_shape (c : SlotIndex) (s : State) :
    exec (.shape c) s = .next { s with
      regs := { s.regs with
        slots := s.regs.slots.set c.val { s.regs.slots[c] with pulse := toField 16 (shape s.params s.regs.slots[c]) } } } :=
  exec_eq (.shape c) s

/-! ### The statements -/

/-- Settles O16: the stages written out are the model's, and the pulse field holds their result exactly. -/
theorem shapeStoresTheComposedFunction : Obligations.ShapeStoresTheComposedFunction := by
  intro s c x pMin pMax mid value r0 r e a u t result
  have hmid : (pMid s.params : Int) = mid := pMid_eq s.params
  have hraw : rawOf x = r0 := by
    rw [rawOf, buttonRaw_eq]
    rfl
  have hresult : shape s.params x = result := by
    rw [shape_eq, shapeRaw, scaled, hmid, hraw]
    rfl
  exact ⟨toField 16 (shape s.params x), (toNat_toField_shape s.params x).trans hresult, exec_shape c s⟩

/-- Settles O17: an absent source shapes to the neutral pulse, whose field is that of the natural number. -/
theorem absentSourceShapesToNeutral : Obligations.AbsentSourceShapesToNeutral := by
  intro s c hkind
  refine ⟨_, rfl, ?_⟩
  rw [exec_shape, shape_of_absent s.params hkind, toField, BitVec.ofInt_natCast, pMid]

/-- Settles O18: the clamp's limits bound the result, and full deflection bounds the pulse before trim. -/
theorem shapeStaysInThePulseRange : Obligations.ShapeStaysInThePulseRange := by
  refine fun p => ⟨fun c => ?_, fun e r h0 h1 hlo hhi => scaled_adjusted_mem p h0 h1 hlo hhi⟩
  obtain ⟨hlo, hhi⟩ := shape_mem p c
  exact ⟨hlo, hhi, hhi.trans_lt (pMax_lt p)⟩

/-- Settles O19: without expo the blend is a shift, which the rounding of the scale cancels. -/
theorem expoZeroIsTheIdentity : Obligations.ExpoZeroIsTheIdentity := fun r =>
  ⟨adjusted_zero r, fun p => ⟨scaled_adjusted_zero p r, scaled_adjusted_zero_of_dvd p⟩, scaled_default_adjusted_zero r⟩

/-- Settles O20: the blend multiplies by a positive gain of at most 1.0 and is strictly increasing, and rounding, trim
and clamp keep order. -/
theorem expoKeepsSignAndOrder : Obligations.ExpoKeepsSignAndOrder := by
  intro e h0 h1
  have hmono := adjusted_strictMono h0 h1
  refine ⟨fun r => sign_adjusted r h0 h1, fun r hlo hhi => absolute_adjusted_le h0 h1 hlo hhi,
    fun r r' hr => hmono hr, fun p => ⟨fun r r' trim hr => ?order, fun r => ?offset⟩⟩
  case order =>
    exact clamp_mono _ _ (add_le_add_left (scaled_mono p (hmono.monotone hr)) trim)
  case offset =>
    have hspan : 0 < (p.pMax : Int) - p.pMin := by linarith [pMin_lt_pMax p]
    have hsign : sign (((p.pMax : Int) - p.pMin) * adjusted e r) = sign r := by
      rw [mul_comm, sign_mul_pos _ hspan, sign_adjusted r h0 h1]
    rw [scaled, add_sub_cancel_left, add_eq_left, ← hsign]
    exact sign_rndHaz _ (by norm_num)

/-- Settles O21: inversion, blend and scale reflect the pulse about P_MID, and without a trim so does the clamp, whose
limits lie evenly about it. -/
theorem inversionReflectsThePulseAtTrimZero : Obligations.InversionReflectsThePulseAtTrimZero := by
  intro p c hkind
  refine ⟨fun htrim => ?clamped, fun r0 => ?unclamped⟩
  case clamped =>
    have hzero : trimOf c = 0 := htrim
    rw [shape_of_present p hkind, shape_of_present p (c := { c with invert := ~~~c.invert }) hkind]
    calc shapeRaw p { c with invert := ~~~c.invert } (rawOf c)
        = clamp (scaled p (adjusted (expoOf c) (inverted (~~~c.invert) (rawOf c))) + trimOf c) p.pMin p.pMax := rfl
      _ = clamp (2 * pMid p - scaled p (adjusted (expoOf c) (inverted c.invert (rawOf c)))) p.pMin p.pMax := by
          rw [hzero, add_zero, scaled_adjusted_not]
      _ = 2 * pMid p - clamp (scaled p (adjusted (expoOf c) (inverted c.invert (rawOf c)))) p.pMin p.pMax :=
          clamp_reflect _ (pMin_add_pMax p) (pMin_lt_pMax p).le
      _ = 2 * pMid p - shapeRaw p c (rawOf c) := by rw [shapeRaw, hzero, add_zero]
  case unclamped =>
    have hreflect := scaled_adjusted_not p (expoOf c) r0 c.invert
    rw [pMid] at hreflect
    linarith

end Sys2Proof.Machine
end

section
/-! PROOFS. The PPM encoder (R130 to R139). Each slot adds its own time to the channel time, 0 from slot N on; the bounds
of one slot's time bound the sum, so every field of the frame holds its integer exactly. What ENC_PPM leaves is said once,
by `HoldsPpmFrame`, and the statements about the next state follow from it. -/

namespace Sys2Proof.Machine

/-! ### The integers of ENC_PPM and their bounds (R139) -/

/-- What slot `i` adds to the channel time: its active time and its gap, and nothing from slot N on (R132, R135). -/
def slotTime (g : Regs) (i : SlotIndex) : Int := if i.val < nchOf g then activeTime g i + zext g.gap else 0

/-- A slot below N lasts its active time and its gap (R130, R131). -/
theorem slotTime_of_lt {g : Regs} {i : SlotIndex} (h : i.val < nchOf g) :
    slotTime g i = activeTime g i + zext g.gap := if_pos h

/-- A slot from N on lasts no time (R135). -/
theorem slotTime_of_le {g : Regs} {i : SlotIndex} (h : nchOf g ≤ i.val) : slotTime g i = 0 := if_neg h.not_gt

/-- The channel time is the sum of the times of all slots (R132). -/
theorem channelTime_eq_sum (g : Regs) : channelTime g = ∑ i : SlotIndex, slotTime g i := sum_finRange (slotTime g)

/-- The active time is never negative: MINA is not (R130). -/
theorem activeTime_nonneg (g : Regs) (i : SlotIndex) : 0 ≤ activeTime g i :=
  (zext_nonneg g.minActive).trans (le_max_right _ _)

/-- The active time fits PPM_HIGH: it is at most the pulse, or MINA (R130). -/
theorem activeTime_le (g : Regs) (i : SlotIndex) : activeTime g i ≤ 65535 := by
  have hpulse : pulseOf g.slots[i] < 2 ^ 16 := zext_lt _
  have hgap := zext_nonneg g.gap
  have hmin := zext_lt g.minActive
  rw [activeTime]
  omega

/-- A slot's time is never negative. -/
theorem slotTime_nonneg (g : Regs) (i : SlotIndex) : 0 ≤ slotTime g i := by
  have hactive := activeTime_nonneg g i
  have hgap := zext_nonneg g.gap
  rw [slotTime]
  split <;> omega

/-- A slot's time is at most two full 16-bit fields (R132). -/
theorem slotTime_le (g : Regs) (i : SlotIndex) : slotTime g i ≤ 131070 := by
  have hactive := activeTime_le g i
  have hgap := zext_lt g.gap
  rw [slotTime]
  split <;> omega

/-- The channel time is never negative. -/
theorem channelTime_nonneg (g : Regs) : 0 ≤ channelTime g := by
  rw [channelTime_eq_sum]
  exact Finset.sum_nonneg fun i _ => slotTime_nonneg g i

/-- The channel time is at most sixteen times the longest slot (R132). -/
theorem channelTime_le (g : Regs) : channelTime g ≤ 2097120 := by
  rw [channelTime_eq_sum]
  calc ∑ i : SlotIndex, slotTime g i ≤ ∑ _i : SlotIndex, (131070 : Int) :=
        Finset.sum_le_sum fun i _ => slotTime_le g i
    _ = 2097120 := by simp

/-- The sync gap is never below SMIN (R133). -/
theorem le_syncGap (g : Regs) : zext g.syncMin ≤ syncGap g := le_max_right _ _

/-- The sync gap is at most the nominal period or SMIN, because the channel time is not negative (R139). -/
theorem syncGap_le (g : Regs) : syncGap g ≤ max (zext g.frame) (zext g.syncMin) :=
  max_le_max_right _ (sub_le_self _ (channelTime_nonneg g))

/-! ### The fields written, as numbers -/

/-- PPM_HIGH holds the active time exactly (R130). -/
theorem toNat_highField {g : Regs} {i : SlotIndex} (h : i.val < nchOf g) :
    ((highField g i).toNat : Int) = activeTime g i := by
  rw [highField, if_pos h]
  exact toNat_toField (activeTime_nonneg g i) ((activeTime_le g i).trans_lt (by norm_num))

/-- PPM_LOW holds GAP below N (R131). -/
theorem lowField_of_lt {g : Regs} {i : SlotIndex} (h : i.val < nchOf g) : lowField g i = g.gap := if_pos h

/-- PPM_HIGH holds 0 from slot N on (R135). -/
theorem highField_of_le {g : Regs} {i : SlotIndex} (h : nchOf g ≤ i.val) : highField g i = 0 := if_neg h.not_gt

/-- PPM_LOW holds 0 from slot N on (R135). -/
theorem lowField_of_le {g : Regs} {i : SlotIndex} (h : nchOf g ≤ i.val) : lowField g i = 0 := if_neg h.not_gt

/-- The pair a slot holds lasts the slot's time, in the frame and after it. -/
theorem toNat_pair (g : Regs) (i : SlotIndex) :
    ((highField g i).toNat : Int) + (lowField g i).toNat = slotTime g i := by
  rcases lt_or_ge i.val (nchOf g) with h | h
  · rw [toNat_highField h, lowField_of_lt h, slotTime_of_lt h, zext]
  · rw [highField_of_le h, lowField_of_le h, slotTime_of_le h]
    rfl

/-- PPM_TOTAL holds the channel time exactly (R132). -/
theorem toNat_totalField (g : Regs) : ((toField 22 (channelTime g)).toNat : Int) = channelTime g :=
  toNat_toField (channelTime_nonneg g) ((channelTime_le g).trans_lt (by norm_num))

/-- PPM_SYNC holds the sync gap exactly (R133). -/
theorem toNat_syncField (g : Regs) : ((toField 16 (syncGap g)).toNat : Int) = syncGap g :=
  toNat_toField ((zext_nonneg _).trans (le_syncGap g)) ((syncGap_le g).trans_lt (max_lt (zext_lt _) (zext_lt _)))

/-! ### The frame ENC_PPM leaves -/

/-- The PPM output registers of `t` are the frame made from the configuration and the pulses of `g`, on integers: the
pairs, zeros after them, the channel time and the sync gap (R130 to R135). -/
structure HoldsPpmFrame (g t : Regs) : Prop where
  high : ∀ i : SlotIndex, i.val < g.nch.toNat →
    (t.high[i].toNat : Int) = max ((g.slots[i].pulse.toNat : Int) - g.gap.toNat) (g.minActive.toNat : Int)
  low : ∀ i : SlotIndex, i.val < g.nch.toNat → t.low[i] = g.gap
  zero : ∀ i : SlotIndex, g.nch.toNat ≤ i.val → t.high[i] = 0 ∧ t.low[i] = 0
  total : t.total.toNat = ∑ i : SlotIndex, (t.high[i].toNat + t.low[i].toNat)
  sync : (t.sync.toNat : Int) = max ((g.frame.toNat : Int) - t.total.toNat) (g.syncMin.toNat : Int)

/-- ENC_PPM on a legal channel count leaves the frame of its registers (R134). -/
theorem encodePpm_holdsPpmFrame {g : Regs} (h : NchLegal g) : HoldsPpmFrame g (encodePpm g) := by
  rw [encodePpm_legal h]
  constructor <;>
    simp only [markPpmValid_high, markPpmValid_low, markPpmValid_total, markPpmValid_sync, writePpmFrame_high,
      writePpmFrame_low, writePpmFrame_total, writePpmFrame_sync, ofFn_slot]
  case high => exact fun i hi => toNat_highField hi
  case low => exact fun i hi => lowField_of_lt hi
  case zero => exact fun i hi => ⟨highField_of_le hi, lowField_of_le hi⟩
  case total =>
    zify
    rw [toNat_totalField, channelTime_eq_sum]
    exact Finset.sum_congr rfl fun i _ => (toNat_pair g i).symm
  case sync =>
    rw [toNat_syncField, toNat_totalField]
    rfl

/-- Whatever next state ENC_PPM answers on a legal channel count, it holds the frame. -/
theorem holdsPpmFrame_of_exec {s t : State} (h : NchLegal s.regs) (hexec : exec .encPpm s = .next t) :
    HoldsPpmFrame s.regs t.regs := by
  rw [exec_eq] at hexec
  cases hexec
  exact encodePpm_holdsPpmFrame h

namespace HoldsPpmFrame

variable {g t : Regs} (hf : HoldsPpmFrame g t)
include hf

/-- The pairs from N on add nothing to the channel time (R132, R135). -/
theorem total_eq_sum_below :
    t.total.toNat = ∑ i : SlotIndex, if i.val < g.nch.toNat then t.high[i].toNat + t.low[i].toNat else 0 := by
  rw [hf.total]
  refine Finset.sum_congr rfl fun i _ => ?_
  split
  · rfl
  · rename_i hi
    obtain ⟨hhigh, hlow⟩ := hf.zero i (not_lt.1 hi)
    rw [hhigh, hlow]
    rfl

/-- A pair below N lasts at least MINA and GAP (R130, R131). -/
theorem le_pair {i : SlotIndex} (hi : i.val < g.nch.toNat) :
    g.minActive.toNat + g.gap.toNat ≤ t.high[i].toNat + t.low[i].toNat := by
  have hhigh := hf.high i hi
  rw [hf.low i hi]
  omega

/-- A pair below N lasts exactly its pulse, when the pulse is at least GAP and MINA together (R132). -/
theorem pair_eq_pulse {i : SlotIndex} (hi : i.val < g.nch.toNat)
    (hpulse : g.gap.toNat + g.minActive.toNat ≤ g.slots[i].pulse.toNat) :
    t.high[i].toNat + t.low[i].toNat = g.slots[i].pulse.toNat := by
  have hhigh := hf.high i hi
  rw [hf.low i hi]
  omega

/-- The channel time is at least N of the shortest pairs (R132). -/
theorem le_total (hn : g.nch.toNat ≤ 16) :
    g.nch.toNat * (g.minActive.toNat + g.gap.toNat) ≤ t.total.toNat := by
  rw [hf.total_eq_sum_below]
  calc g.nch.toNat * (g.minActive.toNat + g.gap.toNat)
      = ∑ i : SlotIndex, if i.val < g.nch.toNat then g.minActive.toNat + g.gap.toNat else 0 := by
        rw [← Finset.sum_filter, Finset.sum_const, Fin.card_filter_val_lt, min_eq_right hn, smul_eq_mul]
    _ ≤ _ := Finset.sum_le_sum fun i _ => by
        split
        · exact hf.le_pair ‹_›
        · exact le_rfl

/-- The channel time is at most sixteen pairs of full fields (R132). -/
theorem total_le : t.total.toNat ≤ 16 * 131070 := by
  rw [hf.total]
  calc ∑ i : SlotIndex, (t.high[i].toNat + t.low[i].toNat) ≤ ∑ _i : SlotIndex, 131070 :=
        Finset.sum_le_sum fun i _ => by have := t.high[i].isLt; have := t.low[i].isLt; omega
    _ = 16 * 131070 := by simp

end HoldsPpmFrame

/-! ### The waveform (R137) -/

/-- The pairs of the slots below `n` last their sum, slot by slot. -/
theorem sum_us_pairs (n : Nat) (g : Regs) (slots : List SlotIndex) :
    (((slots.filter fun i => i.val < n).flatMap fun i =>
        [LineSpan.high g.high[i].toNat, LineSpan.low g.low[i].toNat]).map LineSpan.us).sum =
      (slots.map fun i => if i.val < n then g.high[i].toNat + g.low[i].toNat else 0).sum := by
  induction slots with
  | nil => rfl
  | cons i slots ih =>
    by_cases h : i.val < n
    · simp [-Fin.getElem_fin, h, ih, LineSpan.us, add_assoc]
    · simp [-Fin.getElem_fin, h, ih]

/-- The waveform lasts the pairs of its slots and the sync gap. -/
theorem sum_us_ppmWaveform (n : Nat) (g : Regs) :
    ((ppmWaveform n g).map LineSpan.us).sum =
      (∑ i : SlotIndex, if i.val < n then g.high[i].toNat + g.low[i].toNat else 0) + g.sync.toNat := by
  rw [ppmWaveform, List.map_append, List.sum_append, sum_us_pairs, sum_finRange]
  rfl

/-! ### The statements -/

/-- Settles O28: the bounds of one slot bound the channel time, which bounds the sync gap. -/
theorem encPpmOverflowsNoField : Obligations.EncPpmOverflowsNoField := by
  intro g
  have hgap := g.gap.isLt
  have hframe := g.frame.isLt
  have hsync := g.syncMin.isLt
  exact ⟨fun i => ⟨activeTime_nonneg g i, activeTime_le g i⟩, by omega, channelTime_nonneg g, channelTime_le g,
    by norm_num, le_syncGap g, syncGap_le g, by omega⟩

/-- Settles O25: the command writes the fields of `writePpmFrame` and PPM_VALID, and those hold the frame. -/
theorem encPpmWritesTheFrame : Obligations.EncPpmWritesTheFrame := by
  intro s hlo hhi
  have hlegal : NchLegal s.regs := ⟨hlo, hhi⟩
  have hf := encodePpm_holdsPpmFrame hlegal
  refine ⟨_, _, _, _, ?exec, fun i hi => ⟨hf.high i hi, hf.low i hi⟩, hf.zero, hf.total, hf.sync⟩
  case exec =>
    rw [exec_eq, effect, encodePpm_legal hlegal]
    rfl

/-- Settles O26: sums of the pairs, compared slot by slot with the shortest pair, the longest, and the pulse. -/
theorem channelTimeIsBoundedAndExact : Obligations.ChannelTimeIsBoundedAndExact := by
  intro s t hlo hhi hexec
  have hf := holdsPpmFrame_of_exec ⟨hlo, hhi⟩ hexec
  refine ⟨hf.total_eq_sum_below, hf.le_total hhi, hf.total_le, fun hpulse => ?exact⟩
  case exact =>
    have hpair : ∀ i : SlotIndex, i.val < s.regs.nch.toNat →
        t.regs.high[i].toNat + t.regs.low[i].toNat = s.regs.slots[i].pulse.toNat :=
      fun i hi => hf.pair_eq_pulse hi (hpulse i hi)
    refine ⟨hpair, hf.total_eq_sum_below.trans (Finset.sum_congr rfl fun i _ => ?_)⟩
    split
    · exact hpair i ‹_›
    · rfl

/-- Settles O27: the spans of the waveform add up to the channel time and the sync gap, and the sync gap is the greater of
what is left of F and S. -/
theorem ppmFrameLastsTheNominalPeriodOrMore : Obligations.PpmFrameLastsTheNominalPeriodOrMore := by
  intro s t hlo hhi hexec
  have hf := holdsPpmFrame_of_exec ⟨hlo, hhi⟩ hexec
  have hspans : ((ppmWaveform s.regs.nch.toNat t.regs).map LineSpan.us).sum =
      t.regs.total.toNat + t.regs.sync.toNat := by
    rw [sum_us_ppmWaveform, ← hf.total_eq_sum_below]
  have hsync := hf.sync
  exact ⟨hspans, by omega, by omega, by omega⟩

end Sys2Proof.Machine
end

section
/-! PROOFS. The SBUS encoder (R151 to R155). The stream is a number whose digits in base `2^11` are the sixteen values, so
a bit of a data byte is a bit of one value. The frame words are then read back byte by byte, and every statement about the
layout of the frame is one about its bytes. -/

namespace Sys2Proof.Machine

/-! ### The stream (R151) -/

/-- `X` is the sum of the values, each shifted to its place. -/
theorem packStream_eq_sum (vals : Vector (BitVec 11) 16) :
    packStream vals = ∑ k : SlotIndex, vals[k].toNat * 2 ^ (11 * k.val) :=
  sum_finRange fun k => vals[k].toNat * 2 ^ (11 * k.val)

/-- `X` is the number that the library's equivalence of digit functions and numbers gives the values, as digits in base
`2^11`. -/
theorem packStream_eq_finFunctionFinEquiv (vals : Vector (BitVec 11) 16) :
    packStream vals = (finFunctionFinEquiv fun k : SlotIndex => vals[k].toFin : Fin ((2 ^ 11) ^ 16)).val := by
  rw [packStream_eq_sum, finFunctionFinEquiv_apply]
  exact Finset.sum_congr rfl fun k _ => by rw [pow_mul]; rfl

/-- Digit `k` of `X` in base `2^11` is value `k`. -/
theorem packStream_digit (vals : Vector (BitVec 11) 16) (k : SlotIndex) :
    packStream vals / 2 ^ (11 * k.val) % 2 ^ 11 = vals[k].toNat := by
  have hdigit := congrFun (finFunctionFinEquiv.symm_apply_apply fun k : SlotIndex => vals[k].toFin) k
  rw [packStream_eq_finFunctionFinEquiv, pow_mul]
  exact congrArg Fin.val hdigit

/-- Stream bit `11*k + j` is bit `j` of value `k`. -/
theorem testBit_packStream (vals : Vector (BitVec 11) 16) (k : SlotIndex) (j : Fin 11) :
    (packStream vals).testBit (11 * k.val + j.val) = vals[k].getLsbD j.val := by
  rw [BitVec.getLsbD, ← packStream_digit, Nat.testBit_mod_two_pow, Nat.testBit_div_two_pow, decide_eq_true j.isLt,
    Bool.true_and, add_comm]

/-- Bit `b` of data byte `m` is stream bit `8*m + b`. -/
theorem getLsbD_dataByte (x m : Nat) (b : Fin 8) : (dataByte x m).getLsbD b.val = x.testBit (8 * m + b.val) := by
  rw [dataByte, BitVec.getLsbD_ofNat, decide_eq_true b.isLt, Bool.true_and, Nat.testBit_shiftRight]

/-- Data byte `m` as a number: what is left of the stream after `m` bytes, modulo `2^8`. -/
theorem toNat_dataByte (x m : Nat) : (dataByte x m).toNat = x / 2 ^ (8 * m) % 2 ^ 8 := by
  rw [dataByte, BitVec.toNat_ofNat, Nat.shiftRight_eq_div_pow]

/-- Settles O31: the bit of the byte and the bit of the value are the same bit of the stream. -/
theorem dataBytesCarryTheBitsInOrder : Obligations.DataBytesCarryTheBitsInOrder := by
  refine fun vals m => ⟨fun k j b hbit => ?bits, ?number⟩
  case bits => rw [getLsbD_dataByte, ← hbit, testBit_packStream]
  case number => rw [toNat_dataByte, packStream_eq_sum]

/-! ### The frame bytes and the words that hold them (R152, R155) -/

/-- B[0] is the header. -/
theorem frameByte_zero (x : Nat) : frameByte x 0 = 0x0F#8 := rfl

/-- B[1 + m] is data byte `m`. -/
theorem frameByte_succ {m : Nat} (x : Nat) (h : m < 22) : frameByte x (m + 1) = dataByte x m := by
  rw [frameByte, if_neg (by omega), if_pos (by omega), Nat.add_sub_cancel]

/-- The flags, the end marker and the padding are 0. -/
theorem frameByte_of_gt {j : Nat} (x : Nat) (h : 22 < j) : frameByte x j = 0x00#8 := by
  rw [frameByte, if_neg (by omega), if_neg (by omega)]

/-- Bytes B[0] to B[24] are the header, the data bytes, the flags and the end marker. -/
theorem map_frameByte_range (x : Nat) :
    (List.range 25).map (frameByte x) = 0x0F#8 :: ((List.range 22).map (dataByte x) ++ [0x00#8, 0x00#8]) := by
  have hrange : List.range 25 = 0 :: ((List.range 22).map Nat.succ ++ [23, 24]) := rfl
  have hdata : (List.range 22).map (frameByte x ∘ Nat.succ) = (List.range 22).map (dataByte x) :=
    List.map_congr_left fun m hm => frameByte_succ x (List.mem_range.mp hm)
  rw [hrange, List.map_cons, List.map_append, List.map_map, hdata]
  rfl

/-- A word of the frame as a number, least significant byte last. -/
theorem toNat_frameWord (x w : Nat) :
    (frameWord x w).toNat = 2 ^ 24 * (frameByte x (4 * w + 3)).toNat + 2 ^ 16 * (frameByte x (4 * w + 2)).toNat +
      2 ^ 8 * (frameByte x (4 * w + 1)).toNat + (frameByte x (4 * w)).toNat :=
  toNat_fourBytes _ _ _ _

/-- Word 0 has the header in its low byte. -/
theorem frameWord_zero_mod (x : Nat) : (frameWord x 0).toNat % 256 = 0x0F := by
  have hheader : (frameByte x (4 * 0)).toNat = 0x0F := congrArg BitVec.toNat (frameByte_zero x)
  rw [toNat_frameWord, hheader]
  omega

/-- Word 5 has the flags, which are 0, in its high byte. -/
theorem frameWord_five_lt (x : Nat) : (frameWord x 5).toNat < 2 ^ 24 := by
  have hflags : (frameByte x (4 * 5 + 3)).toNat = 0 := congrArg BitVec.toNat (frameByte_of_gt x (by omega))
  have h0 := (frameByte x (4 * 5)).isLt
  have h1 := (frameByte x (4 * 5 + 1)).isLt
  have h2 := (frameByte x (4 * 5 + 2)).isLt
  rw [toNat_frameWord, hflags]
  omega

/-- Word 6 is the end marker and the padding, all 0. -/
theorem frameWord_six (x : Nat) : frameWord x 6 = 0#32 := by
  have hzero : ∀ i, frameByte x (4 * 6 + i) = 0x00#8 := fun i => frameByte_of_gt x (by omega)
  rw [frameWord, hzero 3, hzero 2, hzero 1, hzero 0]
  rfl

/-- A byte of a word as a number. -/
theorem toNat_wordByte (v : Word) (j : Nat) : (wordByte v j).toNat = v.toNat / 2 ^ (8 * (j % 4)) % 2 ^ 8 := by
  rw [wordByte, BitVec.extractLsb'_toNat, Nat.shiftRight_eq_div_pow]

/-- Word `j / 4` of the frame holds byte `B[j]` at its place. -/
theorem wordByte_frameWord (x j : Nat) : wordByte (frameWord x (j / 4)) j = frameByte x j := by
  apply BitVec.eq_of_toNat_eq
  have hj : j = 4 * (j / 4) + j % 4 := (Nat.div_add_mod j 4).symm
  have h0 := (frameByte x (4 * (j / 4))).isLt
  have h1 := (frameByte x (4 * (j / 4) + 1)).isLt
  have h2 := (frameByte x (4 * (j / 4) + 2)).isLt
  have h3 := (frameByte x (4 * (j / 4) + 3)).isLt
  rw [toNat_wordByte, toNat_frameWord]
  conv_rhs => rw [hj]
  obtain hm | hm | hm | hm : j % 4 = 0 ∨ j % 4 = 1 ∨ j % 4 = 2 ∨ j % 4 = 3 := by omega
  all_goals
    simp only [hm, Nat.add_zero]
    omega

/-- SBUS_FRAME[w] of sixteen values is word `w` of their frame. -/
theorem frameOf_word (vals : Vector (BitVec 11) 16) (w : Fin 7) : (frameOf vals)[w] = frameWord (packStream vals) w.val :=
  ofFn_slot _ w

/-- Registers that hold the frame of sixteen values give back each of its 28 bytes. -/
theorem wordByte_frameOf (vals : Vector (BitVec 11) 16) {j : Nat} (h : j < 28) :
    wordByte (frameOf vals)[Fin.ofNat 7 (j / 4)] j = frameByte (packStream vals) j := by
  have hword : (Fin.ofNat 7 (j / 4)).val = j / 4 := Nat.mod_eq_of_lt (by omega)
  rw [frameOf_word, hword, wordByte_frameWord]

/-! ### The frame ENC_SBUS leaves -/

/-- Whatever next state ENC_SBUS answers, its words are the frame of its values (R154). -/
theorem sbusFrame_of_exec {s t : State} (hexec : exec .encSbus s = .next t) :
    t.regs.sbusFrame = frameOf t.regs.sbusVal := by
  rw [exec_eq] at hexec
  cases hexec
  exact (encodeSbus_sbusFrame _ _).trans (congrArg frameOf (encodeSbus_sbusVal _ _).symm)

/-- The bytes to send are B[0] to B[24], when the registers hold a frame. -/
theorem sbusBytes_of_frame {g : Regs} (h : g.sbusFrame = frameOf g.sbusVal) :
    sbusBytes g = (List.range 25).map (frameByte (packStream g.sbusVal)) := by
  rw [sbusBytes, h]
  refine List.map_congr_left fun j hj => wordByte_frameOf _ ?_
  have := List.mem_range.mp hj
  omega

/-- Settles O32: the bytes are those of the frame in order; words 0, 5 and 6 are put together from the header, the flags,
the end marker and the padding. -/
theorem sbusFrameHasItsLayout : Obligations.SbusFrameHasItsLayout := by
  intro s t hexec
  have hframe := sbusFrame_of_exec hexec
  have hbytes := sbusBytes_of_frame hframe
  have hword : ∀ w : Fin 7, t.regs.sbusFrame[w] = frameWord (packStream t.regs.sbusVal) w.val := fun w => by
    rw [hframe, frameOf_word]
  refine ⟨hbytes.trans (map_frameByte_range _), ?_, ?_, ?_, ?_⟩
  · rw [hbytes, List.length_map, List.length_range]
  · exact (hword 6).trans (frameWord_six _)
  · rw [hword 5]
    exact frameWord_five_lt _
  · rw [hword 0]
    exact frameWord_zero_mod _

end Sys2Proof.Machine
end

section
/-! PROOFS. Command words and the decoder (R81 to R84): a word is its three fields, and the checks of `decode` fix all
three, so a word that decodes is the word of its command and matches that command's row of the opcode map. -/

namespace Sys2Proof

/-- A command word is its fields RSVD, CH and OP, side by side (R81). -/
theorem append_fields (w : Word) : rsvdField w ++ chField w ++ opField w = w := by
  unfold rsvdField chField opField
  rw [BitVec.extractLsb'_append_extractLsb'_eq_extractLsb' (start₁ := 8) (start₂ := 12) rfl,
    BitVec.extractLsb'_append_extractLsb'_eq_extractLsb' (start₁ := 0) (start₂ := 8) rfl]
  exact BitVec.extractLsb'_eq_self

/-- The channel field that names a slot is that slot (R82). -/
theorem ofFin_slotOfCh (b : BitVec 4) : BitVec.ofFin (slotOfCh b) = b := rfl

/-- A command without a slot is taken only where CH is 0 (R83). -/
theorem withoutSlot_eq_ok {b : BitVec 4} {i j : Instr} (h : withoutSlot (slotOfCh b) i = .ok j) :
    b = 0#4 ∧ j = i := by
  unfold withoutSlot at h
  split at h
  case isTrue hslot =>
    cases h
    exact ⟨(ofFin_slotOfCh b).symm.trans (congrArg BitVec.ofFin hslot), rfl⟩
  case isFalse => cases h

/-- Decoder inversion: the checks a word has passed that decodes to `i` fix its three fields (R84). -/
theorem fields_of_decode {w : Word} {i : Instr} (h : decode w = .ok i) :
    rsvdField w = 0#20 ∧ chField w = channelOf i ∧ opField w = opcodeOf i := by
  unfold decode at h
  split at h
  case isTrue => cases h
  case isFalse hrsvd =>
    refine ⟨not_not.mp hrsvd, ?_⟩
    split at h
    case h_2 hop =>
      cases h
      exact ⟨rfl, BitVec.eq_of_toNat_eq hop⟩
    case h_8 => cases h
    all_goals
      rename_i hop
      obtain ⟨hch, rfl⟩ := withoutSlot_eq_ok h
      exact ⟨hch, BitVec.eq_of_toNat_eq hop⟩

/-- A word that decodes is the command word of what it decodes to (R81, R84). -/
theorem eq_encode_of_decode {w : Word} {i : Instr} (h : decode w = .ok i) : w = encode i := by
  obtain ⟨hrsvd, hch, hop⟩ := fields_of_decode h
  rw [← append_fields w, hrsvd, hch, hop, encode]

/-- Every command has its row in the opcode map (R83). -/
theorem row_mem_opcodeRows (i : Instr) : i.row ∈ opcodeRows := by
  cases i <;> simp [opcodeRows, Instr.row]

/-- The facts about command words, for every command at once. -/
theorem commandWord_statement (i : Instr) : Laws.CommandWord.Statement i := by
  cases i with
  | nop => exact Laws.CommandWord.nop
  | shape c => exact Laws.CommandWord.shape c
  | shapeAll => exact Laws.CommandWord.shapeAll
  | encPpm => exact Laws.CommandWord.encPpm
  | encSbus => exact Laws.CommandWord.encSbus
  | cycle => exact Laws.CommandWord.cycle
  | softReset => exact Laws.CommandWord.softReset

/-- A command's word matches the command's row (R83). -/
theorem encode_matches_row (i : Instr) : encode i &&& i.row.mask = i.row.pattern := by
  obtain ⟨_, hmatches, _⟩ := commandWord_statement i
  exact beq_iff_eq.mp hmatches

/-- A word that matches no row of the opcode map is rejected (R84). -/
theorem decode_eq_error_of_no_row {w : Word} (h : ∀ row ∈ opcodeRows, w &&& row.mask ≠ row.pattern) :
    ∃ why, decode w = .error why := by
  cases hw : decode w with
  | error why => exact ⟨why, rfl⟩
  | ok i =>
    obtain rfl := eq_encode_of_decode hw
    exact absurd (encode_matches_row i) (h i.row (row_mem_opcodeRows i))

end Sys2Proof
end

section
/-! PROOFS. The two errors (R200 to R204): an illegal word reaches `raise Error` and no command; a bad channel count
reaches it after the shaping of CYCLE, with PPM_VALID cleared and no output register written. -/

namespace Sys2Proof.Machine

/-! ### ILLEGAL_CMD -/

/-- A rejected word, written to CMD, records ILLEGAL_CMD and does nothing else (R201). -/
theorem writeEffect_cmd_of_error {v : Word} {why : Illegal} (h : decode v = .error why) (p : Params) (g : Regs) :
    writeEffect p cmdAddr v g = raiseError .illegalCmd g := by
  rw [writeEffect, if_pos rfl, h]

/-- Settles O6: a word that matches no row is rejected, so the write at CMD only records the error. -/
theorem illegalWordIsRecordedAndDoesNothingElse : Obligations.IllegalWordIsRecordedAndDoesNothingElse := by
  intro s rest w hport hp hrows
  obtain ⟨why, hdecode⟩ := decode_eq_error_of_no_row hrows
  have heffect : writeEffect s.params 0x008 w s.regs = { s.regs with err := 1, errCode := 1 } :=
    writeEffect_cmd_of_error hdecode s.params s.regs
  rw [step_write hport hp (by decide) (by decide), heffect]

/-! ### BAD_NCH -/

/-- Whether ENC_PPM takes a channel count is a question about the field PPM_NCH alone (R134, R202). -/
theorem not_nchLegal_iff (g : Regs) : ¬NchLegal g ↔ g.nch.toNat = 0 ∨ 16 < g.nch.toNat := by
  change ¬(1 ≤ g.nch.toNat ∧ g.nch.toNat ≤ 16) ↔ _
  omega

/-- ENC_PPM on a bad channel count clears PPM_VALID and records BAD_NCH (R202). -/
theorem exec_encPpm_bad {s : State} (h : ¬NchLegal s.regs) :
    exec .encPpm s = .next { s with regs := { s.regs with ppmValid := 0, err := 1, errCode := 2 } } := by
  rw [exec_eq, effect, encodePpm_bad h]
  rfl

/-- With MODE = 0, CYCLE is ENC_PPM on the state that SHAPE_ALL leaves (R171). -/
theorem exec_cycle_ppm {s t : State} (hmode : s.regs.mode = 0) (ht : exec .shapeAll s = .next t) :
    exec .cycle s = exec .encPpm t := by
  rw [exec_eq, effect] at ht
  cases ht
  rw [exec_eq, exec_eq, effect, effect, encodeSelected_ppm _ _ ((shapeEvery_mode _ _).trans hmode),
    State.withRegs_regs, State.withRegs_withRegs]

/-- SHAPE_ALL leaves the channel count as it is (R117). -/
theorem nch_of_exec_shapeAll {s t : State} (ht : exec .shapeAll s = .next t) : t.regs.nch = s.regs.nch := by
  rw [exec_eq] at ht
  cases ht
  exact shapeEvery_nch _ _

/-- Settles O29: SHAPE_ALL keeps the channel count, so CYCLE's ENC_PPM meets the same bad count on the shaped state. -/
theorem badChannelCountIsRecorded : Obligations.BadChannelCountIsRecorded := by
  intro s hn
  refine ⟨exec_encPpm_bad ((not_nchLegal_iff s.regs).mpr hn), fun hmode => ⟨_, exec_eq .shapeAll s, ?_⟩⟩
  have hkeep := nch_of_exec_shapeAll (exec_eq .shapeAll s)
  rw [exec_cycle_ppm hmode (exec_eq .shapeAll s)]
  exact exec_encPpm_bad ((not_nchLegal_iff _).mpr (by rwa [hkeep]))

end Sys2Proof.Machine
end

section
/-! PROOFS. The decoder and the encoder as inverses (R81 to R85): each command's word decodes to the command, a word that
matches a row is the word of a command with that row, and the legal words are those of the 22 commands. -/

namespace Sys2Proof

/-- The word of a command decodes to the command (R81, R84). -/
@[simp] theorem decode_encode (i : Instr) : decode (encode i) = .ok i := by
  cases i with
  | shape c =>
    revert c
    decide
  | _ => rfl

/-- Settles O1: a word that decodes is its command's word, and a command's word decodes to the command. -/
theorem decodeIsTheInverseOfEncode : Obligations.DecodeIsTheInverseOfEncode := by
  intro w i
  constructor
  · exact eq_encode_of_decode
  · rintro rfl
    exact decode_encode i

/-- A word is legal exactly when it is the word of some command. -/
theorem decode_ok_iff_exists_encode (w : Word) : (∃ i, decode w = .ok i) ↔ ∃ i, w = encode i :=
  exists_congr fun i => decodeIsTheInverseOfEncode w i

/-- Two commands with the same word are the same command. -/
theorem encode_injective : Function.Injective encode := by
  intro i j h
  have hdecode := decode_encode i
  rw [h, decode_encode] at hdecode
  exact (Except.ok.inj hdecode).symm

/-- A word is legal or rejected. -/
theorem decode_error_iff (w : Word) : (∃ why, decode w = .error why) ↔ ¬∃ i, decode w = .ok i := by
  cases decode w <;> simp

/-! ### Rows -/

/-- A word that matches the row of SHAPE has RSVD = 0 and the opcode of SHAPE, so it is the SHAPE of its CH field (R83). -/
theorem eq_encode_shape_of_row {w : Word} (h : w &&& 0xFFFFF0FF#32 = 0x00000001#32) :
    w = encode (.shape (slotOfCh (chField w))) := by
  have hrsvd : rsvdField w = 0#20 := by
    have hfield := congrArg rsvdField h
    rw [rsvdField, BitVec.extractLsb'_and] at hfield
    exact BitVec.and_allOnes.symm.trans hfield
  have hop : opField w = 0x01#8 := by
    have hfield := congrArg opField h
    rw [opField, BitVec.extractLsb'_and] at hfield
    exact BitVec.and_allOnes.symm.trans hfield
  conv_lhs => rw [← append_fields w, hrsvd, hop]
  rfl

/-- A word that matches a row of the opcode map is the word of a command with that row (R83). -/
theorem exists_encode_of_row {w : Word} {row : OpcodeRow} (hrow : row ∈ opcodeRows)
    (h : w &&& row.mask = row.pattern) : ∃ i, w = encode i := by
  have hfull : ∀ pattern : Word, w &&& 0xFFFFFFFF#32 = pattern → w = pattern := fun pattern hp => by
    rw [← hp]
    exact BitVec.and_allOnes.symm
  simp only [opcodeRows, List.mem_cons, List.not_mem_nil, or_false] at hrow
  rcases hrow with rfl | rfl | rfl | rfl | rfl | rfl | rfl
  · exact ⟨.nop, hfull _ h⟩
  · exact ⟨_, eq_encode_shape_of_row h⟩
  · exact ⟨.shapeAll, hfull _ h⟩
  · exact ⟨.encPpm, hfull _ h⟩
  · exact ⟨.encSbus, hfull _ h⟩
  · exact ⟨.cycle, hfull _ h⟩
  · exact ⟨.softReset, hfull _ h⟩

/-- The word of a command matches one row of the opcode map only, the command's own (R83). -/
theorem eq_row_of_encode_matches {i : Instr} {row : OpcodeRow} (hrow : row ∈ opcodeRows)
    (h : encode i &&& row.mask = row.pattern) : row = i.row := by
  obtain ⟨-, -, hfilter⟩ := commandWord_statement i
  have hmem : row ∈ opcodeRows.filter fun row => row.matches (encode i) :=
    List.mem_filter.mpr ⟨hrow, beq_iff_eq.mpr h⟩
  rw [hfilter] at hmem
  exact List.mem_singleton.mp hmem

/-- Settles O2: a command's word matches the command's row and no other, and a word with a row is a command's word. -/
theorem legalWordMatchesExactlyOneRow : Obligations.LegalWordMatchesExactlyOneRow := by
  refine fun w => ⟨⟨?unique, ?legal⟩, ?own⟩
  case unique =>
    rintro ⟨i, hi⟩
    obtain rfl := eq_encode_of_decode hi
    exact ⟨i.row, ⟨row_mem_opcodeRows i, encode_matches_row i⟩,
      fun row ⟨hrow, hmatch⟩ => eq_row_of_encode_matches hrow hmatch⟩
  case legal =>
    rintro ⟨row, ⟨hrow, hmatch⟩, -⟩
    exact (decode_ok_iff_exists_encode w).mpr (exists_encode_of_row hrow hmatch)
  case own =>
    intro i hi
    obtain rfl := eq_encode_of_decode hi
    exact encode_matches_row i

/-! ### The number of legal words -/

/-- The commands, each once: six without a slot, and SHAPE with each of the sixteen. -/
def allCommands : List Instr :=
  [.nop, .shapeAll, .encPpm, .encSbus, .cycle, .softReset] ++ (List.finRange 16).map .shape

/-- Every command is on the list. -/
theorem mem_allCommands (i : Instr) : i ∈ allCommands := by
  cases i <;> simp [allCommands]

/-- No command is on the list twice. -/
theorem nodup_allCommands : allCommands.Nodup := by decide

/-- Settles O3: a word without a row is the word of no command; the legal words are those of the 22 commands, and no two
commands share one. -/
theorem illegalWordsAreCounted : Obligations.IllegalWordsAreCounted := by
  refine ⟨fun w => ⟨?noRow, decode_eq_error_of_no_row⟩,
    allCommands.map encode, nodup_allCommands.map encode_injective, by decide, fun w => ?mem⟩
  case noRow =>
    intro herror row hrow hmatch
    exact (decode_error_iff w).mp herror ((decode_ok_iff_exists_encode w).mpr (exists_encode_of_row hrow hmatch))
  case mem =>
    rw [decode_ok_iff_exists_encode, List.mem_map]
    exact ⟨fun ⟨i, _, hi⟩ => ⟨i, hi.symm⟩, fun ⟨i, hi⟩ => ⟨i, mem_allCommands i, hi.symm⟩⟩

/-! ### Sample words and the pseudo-instructions of the commands -/

/-- Settles O4: the decoder evaluated at the listed words. -/
theorem sampleWordsDecode : Obligations.SampleWordsDecode := by
  unfold Obligations.SampleWordsDecode
  decide

/-- SHAPE's expansion is the command word of its slot, written to CMD (R93). -/
theorem expand_shape : ∀ c : SlotIndex, Machine.expand (.shape c.val) = Machine.commandTxn (encode (.shape c)) := by
  decide

/-- Settles O51: the words the table writes out are the encoder's, SHAPE's for each slot. -/
theorem pseudoCommandsAreTheCommandWords : Obligations.PseudoCommandsAreTheCommandWords :=
  ⟨rfl, expand_shape, rfl, rfl, rfl, rfl, rfl, rfl⟩

end Sys2Proof
end

section
/-! PROOFS. The bus (R61 to R67, R75): a whole transaction as one step, whether the bus carries it or not; what a write
to each kind of register leaves in the window (R42, R65); and the host operations that are refused. -/

namespace Sys2Proof.Machine

/-! ### Steps of whole transactions -/

/-- With nothing open at the ports, the step of a whole transaction is that transaction (R67). -/
theorem step_txn_eq_perform {s : State} {rest : List HostOp} {t : Txn} (hport : s.port.opened = none)
    (hp : s.pending = .txn t :: rest) : step s = perform t (s.popped rest) := by
  rw [step, stepHost, hp]
  simp only [runOp, State.popped_port, hport]

/-- The bus carries a transaction or has a reason not to (R61). -/
theorem exists_problem_iff (t : Txn) :
    (∃ why, t.problem = some why) ↔ t.size ≠ 4 ∨ t.addr % 4 ≠ 0 ∨ 0x1000 ≤ t.addr := by
  have hcarried := wellFormed_iff t
  rw [← Option.ne_none_iff_exists', ne_eq, hcarried]
  omega

/-- Settles O13: `perform` refuses a transaction for the reason the bus cannot carry it, and runs every other. -/
theorem transactionsTheBusCannotCarryAreRefused : Obligations.TransactionsTheBusCannotCarryAreRefused := by
  intro s rest t hport hp
  rw [← exists_problem_iff, step_txn_eq_perform hport hp]
  refine exists_congr fun why => ⟨fun h => perform_problem h _, fun h => ?_⟩
  cases hproblem : t.problem with
  | none =>
    rw [perform_wellFormed hproblem] at h
    cases h
  | some why' =>
    rw [perform_problem hproblem] at h
    cases h
    rfl

/-- A legal word, written to CMD, has the effect of its command (R84). -/
theorem writeEffect_cmd_of_ok {v : Word} {i : Instr} (h : decode v = .ok i) (p : Params) (g : Regs) :
    writeEffect p cmdAddr v g = effect i p g := by
  rw [writeEffect, if_pos rfl, h]

/-- Settles O5: a write to CMD has the effect of the decoded command, and so has the command. -/
theorem stepRunsTheDecodedCommand : Obligations.StepRunsTheDecodedCommand := by
  intro s rest w i hport hp hdecode
  have heffect : writeEffect s.params 0x008 w s.regs = effect i s.params s.regs :=
    writeEffect_cmd_of_ok hdecode s.params s.regs
  rw [step_write hport hp (by decide) (by decide), heffect, exec_eq]
  rfl

/-- Settles O14: with no operation of the host `step` answers the state it is given. -/
theorem blockWithoutTransactionsWaits : Obligations.BlockWithoutTransactionsWaits := by
  intro s hp
  rw [step, stepHost, hp]

/-! ### What a write leaves in the window -/

/-- Two registers do not share an address (R94). -/
theorem regAddr_injective : Function.Injective regAddr := by
  intro r r' h
  have hr := regAt_regAddr r
  rw [h, regAt_regAddr] at hr
  exact (Option.some.inj hr).symm

/-- A write to the address of a register other than CMD is a write to the register (R65). -/
theorem writeEffect_regAddr {r : Reg} (h : r ≠ .cmd) (p : Params) (v : Word) (g : Regs) :
    writeEffect p (regAddr r) v g = writeReg r v g := by
  have hcmd : regAddr r ≠ cmdAddr := fun e => h (regAddr_injective e)
  rw [writeEffect_of_ne p g hcmd, writeAddr, regAt_regAddr]

/-- The step of a write to a register other than CMD changes nothing but the host's list and the register (R65). -/
theorem step_writeReg {s : State} {rest : List HostOp} {r : Reg} {v : Word} (hport : s.port.opened = none)
    (hp : s.pending = .txn (.write (regAddr r) 4 v) :: rest) (h : r ≠ .cmd) :
    step s = .next { s with pending := rest, regs := writeReg r v s.regs } := by
  obtain ⟨h4, hwindow⟩ := regAddr_inWindow r
  rw [step_write hport hp h4 hwindow, writeEffect_regAddr h]

/-- A write to STATUS clears the error where bit 0 of the data is 1, and does nothing otherwise (R23). -/
theorem writeReg_status (v : Word) (g : Regs) :
    writeReg .status v g = if v.toNat % 2 = 1 then clearError g else g := by
  simp only [writeReg, BitVec.getLsbD, Nat.testBit_zero, decide_eq_true_eq]

/-- A write to a register leaves every other register as it reads: no two registers share a field (R65). -/
theorem readReg_writeReg_of_ne {r r' : Reg} (h : r' ≠ r) (v : Word) (g : Regs) :
    readReg r' (writeReg r v g) = readReg r' g := by
  cases r with
  | chIn c => exact readReg_setSlot c _ g r' (fun e => absurd e h) (fun _ => rfl) (fun _ => rfl) (fun _ => rfl)
  | chCfg c => exact readReg_setSlot c _ g r' (fun _ => rfl) (fun e => absurd e h) (fun _ => rfl) (fun _ => rfl)
  | chTrim c => exact readReg_setSlot c _ g r' (fun _ => rfl) (fun _ => rfl) (fun e => absurd e h) (fun _ => rfl)
  | chPulse c => exact readReg_setSlot c _ g r' (fun _ => rfl) (fun _ => rfl) (fun _ => rfl) (fun e => absurd e h)
  | status =>
    rw [writeReg_status]
    split
    · cases r' <;> first | exact absurd rfl h | rfl
    · rfl
  | _ => cases r' <;> first | exact absurd rfl h | rfl

/-- The low `n` bits of a word, read back into a word, are the word under the mask of those bits. -/
theorem setWidth_fieldOf_zero (n : Nat) (v : Word) (h : n ≤ 32) :
    (fieldOf n 0 v).setWidth 32 = v &&& BitVec.ofNat 32 (2 ^ n - 1) := by
  apply BitVec.eq_of_toNat_eq
  have hmask : 2 ^ n - 1 < 2 ^ 32 := by
    have := Nat.pow_le_pow_right (n := 2) (by decide) h
    have := Nat.two_pow_pos n
    omega
  rw [toNat_setWidth_word _ h, fieldOf, BitVec.extractLsb'_toNat, Nat.shiftRight_zero, BitVec.toNat_and,
    BitVec.toNat_ofNat, Nat.mod_eq_of_lt hmask, Nat.and_two_pow_sub_one_eq_mod]

/-- A word is EXPO, the thirteen reserved bits, INVERT and KIND, side by side (R89). -/
theorem append_cfg_fields (v : Word) : fieldOf 16 16 v ++ fieldOf 13 3 v ++ fieldOf 1 2 v ++ fieldOf 2 0 v = v := by
  unfold fieldOf
  rw [BitVec.extractLsb'_append_extractLsb'_eq_extractLsb' (start₁ := 3) (start₂ := 16) rfl,
    BitVec.extractLsb'_append_extractLsb'_eq_extractLsb' (start₁ := 2) (start₂ := 3) rfl,
    BitVec.extractLsb'_append_extractLsb'_eq_extractLsb' (start₁ := 0) (start₂ := 2) rfl]
  exact BitVec.extractLsb'_eq_self

/-- The word of KIND, INVERT and EXPO of a word is that word under the mask of those fields (R89). -/
theorem append_cfg_fields_masked (v : Word) :
    fieldOf 16 16 v ++ 0#13 ++ fieldOf 1 2 v ++ fieldOf 2 0 v = v &&& 0xFFFF0007#32 := by
  have hfields : ∀ (expo : BitVec 16) (reserved : BitVec 13) (invert : BitVec 1) (kind : BitVec 2),
      (expo ++ reserved ++ invert ++ kind) &&&
        (BitVec.allOnes 16 ++ 0#13 ++ BitVec.allOnes 1 ++ BitVec.allOnes 2) = expo ++ 0#13 ++ invert ++ kind := by
    intros
    simp only [BitVec.and_append, BitVec.and_allOnes, BitVec.and_zero]
  conv_rhs => rw [← append_cfg_fields v]
  exact (hfields _ _ _ _).symm

/-- The mask of the RW fields of a register, where it has any (R42). -/
def rwMask : Reg → Option Word
  | .ctrl => some 0x00000001#32
  | .ppmNch => some 0x0000001F#32
  | .ppmGap => some 0x0000FFFF#32
  | .ppmMinActive => some 0x0000FFFF#32
  | .ppmFrame => some 0x0000FFFF#32
  | .ppmSyncMin => some 0x0000FFFF#32
  | .chIn _ => some 0x0000FFFF#32
  | .chCfg _ => some 0xFFFF0007#32
  | .chTrim _ => some 0x0000FFFF#32
  | .chPulse _ => some 0x0000FFFF#32
  | _ => none

/-- A register with RW fields, once written, reads as the data under the mask of those fields (R65). -/
theorem readReg_writeReg_self {r : Reg} {mask : Word} (h : rwMask r = some mask) (v : Word) (g : Regs) :
    readReg r (writeReg r v g) = v &&& mask := by
  cases r <;> cases h
  case ctrl => exact setWidth_fieldOf_zero 1 v (by decide)
  case ppmNch => exact setWidth_fieldOf_zero 5 v (by decide)
  case chCfg c =>
    simp only [writeReg, readReg, setSlot_same]
    exact append_cfg_fields_masked v
  case chIn c | chTrim c | chPulse c =>
    simp only [writeReg, setPulse, readReg, setSlot_same]
    exact setWidth_fieldOf_zero 16 v (by decide)
  all_goals exact setWidth_fieldOf_zero 16 v (by decide)

/-- Settles O10: the written register reads back under its mask, and a write reaches no other register. -/
theorem writeToAnRwRegisterReadsBackThroughItsMask : Obligations.WriteToAnRwRegisterReadsBackThroughItsMask := by
  intro s rest r v mask hport hp hmask
  have hrw : rwMask r = some mask := by
    rw [← hmask]
    cases r <;> rfl
  have hcmd : r ≠ .cmd := by
    rintro rfl
    cases hrw
  exact ⟨writeReg r v s.regs, step_writeReg hport hp hcmd, readReg_writeReg_self hrw v s.regs,
    fun r' hne => readReg_writeReg_of_ne hne v s.regs⟩

/-- Settles O11: the write to a read-only register stores no field. -/
theorem writeToAReadOnlyRegisterIsIgnored : Obligations.WriteToAReadOnlyRegisterIsIgnored := by
  intro s rest v r hport hr hp
  rcases hr with rfl | rfl | ⟨i, rfl⟩ | ⟨i, rfl⟩ | ⟨k, rfl⟩ | ⟨w, rfl⟩ <;> exact step_writeReg hport hp (by simp)

/-- Settles O12: the write at 0x004 is a write to STATUS, which clears the error exactly where bit 0 is 1. -/
theorem statusWriteClearsTheErrorOnlyWithBitZero : Obligations.StatusWriteClearsTheErrorOnlyWithBitZero := by
  intro s rest v hport hp
  rw [step_writeReg (r := .status) hport hp (by simp), writeReg_status]
  rfl

/-! ### Writes of the pseudo-instructions to a slot -/

/-- A field of a word as a number: the bits above `lo`, modulo `2^n` (R13). -/
theorem toNat_fieldOf (n lo : Nat) (v : Word) : (fieldOf n lo v).toNat = v.toNat / 2 ^ lo % 2 ^ n := by
  rw [fieldOf, BitVec.extractLsb'_toNat, Nat.shiftRight_eq_div_pow]

/-- The word CFG writes, as a number: its operands at their bits (R89, R93). -/
theorem toNat_cfgOperands {kind inv expo : Nat} (hkind : kind < 4) (hinv : inv < 2) (hexpo : expo < 65536) :
    (BitVec.ofNat 32 expo <<< 16 ||| BitVec.ofNat 32 inv <<< 2 ||| BitVec.ofNat 32 kind : Word).toNat =
      2 ^ 16 * expo + 2 ^ 2 * inv + kind := by
  have hlow : inv <<< 2 ||| kind = 2 ^ 2 * inv + kind := by
    rw [← Nat.shiftLeft_add_eq_or_of_lt hkind, Nat.shiftLeft_eq, Nat.mul_comm]
  have hword : expo <<< 16 ||| (2 ^ 2 * inv + kind) = 2 ^ 16 * expo + (2 ^ 2 * inv + kind) := by
    rw [← Nat.shiftLeft_add_eq_or_of_lt (by omega), Nat.shiftLeft_eq, Nat.mul_comm]
  have hexpoShift : (BitVec.ofNat 32 expo <<< 16).toNat = expo <<< 16 := by
    simp only [BitVec.toNat_shiftLeft, BitVec.toNat_ofNat, Nat.shiftLeft_eq]
    omega
  have hinvShift : (BitVec.ofNat 32 inv <<< 2).toNat = inv <<< 2 := by
    simp only [BitVec.toNat_shiftLeft, BitVec.toNat_ofNat, Nat.shiftLeft_eq]
    omega
  rw [BitVec.toNat_or, BitVec.toNat_or, hexpoShift, hinvShift, BitVec.toNat_ofNat, Nat.mod_eq_of_lt (by omega),
    Nat.or_assoc, hlow, hword, Nat.add_assoc]

/-- The field TRIM of the word TRIM writes reads as the signed operand (R90, R93). -/
theorem toInt_trimOperand {t : Int} (hlo : -32768 ≤ t) (hhi : t ≤ 32767) :
    (fieldOf 16 0 (BitVec.ofInt 32 t &&& 0xFFFF#32)).toInt = t := by
  have hmod : (fieldOf 16 0 (BitVec.ofInt 32 t &&& 0xFFFF#32)).toNat = (t % 2 ^ 16).toNat := by
    rw [fieldOf, BitVec.extractLsb'_and]
    change (fieldOf 16 0 (BitVec.ofInt 32 t) &&& BitVec.allOnes 16).toNat = _
    rw [BitVec.and_allOnes, toNat_fieldOf, BitVec.toNat_ofInt]
    omega
  rw [BitVec.toInt_eq_toNat_cond, hmod]
  split <;> omega

/-- Settles O52: each expansion is a write to a channel register of the slot, whose fields then hold the operands. -/
theorem pseudoSlotWritesSetTheirFields : Obligations.PseudoSlotWritesSetTheirFields := by
  intro s rest c o hport hp hwf
  refine ⟨fun kind inv expo ho => ?cfg, fun t ho => ?trim, fun v ho => ?input, fun v ho => ?pulse⟩
  case cfg =>
    subst ho
    obtain ⟨-, hkind, hinv, hexpo⟩ := of_decide_eq_true hwf
    have hword := toNat_cfgOperands hkind hinv hexpo
    refine ⟨_, step_writeReg (r := .chCfg c) hport hp (by simp), rfl, ?_, ?_, ?_⟩
    all_goals
      rw [toNat_fieldOf, hword]
      omega
  case trim =>
    subst ho
    obtain ⟨-, hlo, hhi⟩ := of_decide_eq_true hwf
    exact ⟨_, step_writeReg (r := .chTrim c) hport hp (by simp), rfl, toInt_trimOperand hlo hhi⟩
  case input =>
    subst ho
    obtain ⟨-, hv⟩ := of_decide_eq_true hwf
    refine ⟨_, step_writeReg (r := .chIn c) hport hp (by simp), rfl, ?_⟩
    rw [toNat_fieldOf, BitVec.toNat_ofNat]
    omega
  case pulse =>
    subst ho
    obtain ⟨-, hv⟩ := of_decide_eq_true hwf
    refine ⟨_, step_writeReg (r := .chPulse c) hport hp (by simp), rfl, ?_⟩
    rw [toNat_fieldOf, BitVec.toNat_ofNat]
    omega

/-! ### Refused operations at the ports -/

/-- Settles O49: a whole transaction meets an open one in `runOp`, which refuses it. -/
theorem overlappingTransactionIsRefused : Obligations.OverlappingTransactionIsRefused := by
  intro s t rest hp hopen
  obtain ⟨o, ho⟩ := Option.ne_none_iff_exists'.mp hopen
  rw [step, stepHost, hp]
  simp only [runOp, State.popped_port, ho]

/-- The inputs of an open transaction are not held when `sel`, `we`, `wa` or, in a write, `wdata` differs (R75). -/
theorem inputsHeld_eq_false_iff (p : PortIn) (o : OpenTxn) :
    inputsHeld p o = false ↔ p.sel = false ∨ p.we ≠ o.we ∨ p.wa ≠ o.wa ∨ (p.we = true ∧ p.wdata ≠ o.wdata) := by
  simp [inputsHeld, or_assoc, imp_iff_not_or]

/-- The step of a clock edge is that edge (R75). -/
theorem step_edge {s : State} {rest : List HostOp} {p : PortIn} (hp : s.pending = .edge p :: rest) :
    step s = clockEdge p (s.popped rest) := by
  rw [step, stepHost, hp]
  rfl

section

variable {s : State} {p : PortIn} {o : OpenTxn} (hrst : p.rst = false)
include hrst

/-- With nothing open, an edge with `sel` at 1 opens a transaction (R75). -/
theorem clockEdge_opens (hport : s.port.opened = none) (hsel : p.sel = true) :
    clockEdge p s = .next (s.withPort (openPort p s.port)) := by
  simp only [clockEdge, hrst, hport, hsel, Bool.false_eq_true, if_false, if_true]

/-- An edge at which the inputs are not held is refused (R75). -/
theorem clockEdge_of_not_held (hopen : s.port.opened = some o) (hheld : inputsHeld p o = false) :
    clockEdge p s = .refused .inputsNotHeld := by
  simp only [clockEdge, hrst, hopen, hheld, Bool.false_eq_true, if_false]

/-- An edge before the closing one counts the edges left down, and does nothing else (R75). -/
theorem clockEdge_of_left_succ {n : Nat} (hopen : s.port.opened = some o) (hheld : inputsHeld p o = true)
    (hleft : o.left = n + 1) :
    clockEdge p s =
      .next (s.withPort { s.port with opened := some { o with left := n }, ready := false, rdata := none }) := by
  simp only [clockEdge, hrst, hopen, hheld, hleft, Bool.false_eq_true, if_false, if_true]

/-- The closing edge performs the transaction (R67, R75). -/
theorem clockEdge_of_left_zero (hopen : s.port.opened = some o) (hheld : inputsHeld p o = true) (hleft : o.left = 0) :
    clockEdge p s = closeTxn o s := by
  simp only [clockEdge, hrst, hopen, hheld, hleft, Bool.false_eq_true, if_false, if_true]

/-- An edge at which the inputs are held answers a next state, whether it closes the transaction or not (R75). -/
theorem exists_clockEdge_of_held (hopen : s.port.opened = some o) (hheld : inputsHeld p o = true) :
    ∃ t, clockEdge p s = .next t := by
  cases hleft : o.left with
  | zero => exact ⟨_, (clockEdge_of_left_zero hrst hopen hheld hleft).trans (closeTxn_eq o s)⟩
  | succ n => exact ⟨_, clockEdge_of_left_succ hrst hopen hheld hleft⟩

end

/-- Settles O50: the edge is refused exactly where the inputs are not held, and by no other name. -/
theorem inputsNotHeldAreRefused : Obligations.InputsNotHeldAreRefused := by
  intro s o p rest hp hopen hrst
  rw [← inputsHeld_eq_false_iff, step_edge hp]
  cases hheld : inputsHeld p o with
  | false =>
    rw [clockEdge_of_not_held (s := s.popped rest) hrst hopen hheld]
    exact ⟨iff_of_true rfl rfl, fun r hr => by cases hr; rfl⟩
  | true =>
    obtain ⟨t, hnext⟩ := exists_clockEdge_of_held (s := s.popped rest) hrst hopen hheld
    rw [hnext]
    exact ⟨iff_of_false (by simp) (by simp), fun r hr => by cases hr⟩

end Sys2Proof.Machine
end

section
/-! PROOFS. The commands, each by its effect on the registers (R116, R117, R150 to R158, R170 to R172): shaping slot by
slot in any order, the SBUS map and its frame, CYCLE as shaping and then encoding, and the reset values. -/

namespace Sys2Proof.Machine

/-! ### Shaping (R116, R117) -/

/-- The curve engine reads five fields of a slot, and not its pulse (R109). -/
theorem shape_congr (p : Params) {x y : Slot} (hvalue : x.value = y.value) (hkind : x.kind = y.kind)
    (hinvert : x.invert = y.invert) (hexpo : x.expo = y.expo) (htrim : x.trim = y.trim) : shape p x = shape p y := by
  simp only [shape, shapeRaw, expoOf, trimOf, hvalue, hkind, hinvert, hexpo, htrim]

/-- Settles O22: the pulse of a slot is no input of its shape, and the other fields are the same in both states. -/
theorem shapeReadsItsOwnSlotOnly : Obligations.ShapeReadsItsOwnSlotOnly := by
  intro s t c hparams hvalue hkind hinvert hexpo htrim
  have hshape : shape s.params s.regs.slots[c] = shape t.params t.regs.slots[c] := by
    rw [hparams, shape_congr _ hvalue hkind hinvert hexpo htrim]
  refine ⟨_, _, exec_eq (.shape c) s, exec_eq (.shape c) t, ?_⟩
  simp only [State.withRegs_regs, effect, shapeSlot_eq, setSlot_same, hshape]

/-- Settles O23: SHAPE_ALL leaves in each slot what `shapeSlot` leaves there. -/
theorem shapeAllShapesEverySlot : Obligations.ShapeAllShapesEverySlot := by
  intro s
  refine ⟨(shapeEvery s.params s.regs).slots, ?all, fun c => ⟨_, shapeEvery_slot s.params s.regs c, ?one⟩⟩
  case all =>
    rw [exec_eq, effect, shapeEvery_eq]
    rfl
  case one => rw [exec_shape, shapeEvery_slot]

/-- SHAPEs run in turn shape the listed slots in order. -/
theorem inTurn_shape (cs : List SlotIndex) (s : State) :
    inTurn (cs.map .shape) s = .next (s.withRegs (shapeSlots s.params cs s.regs)) := by
  induction cs generalizing s with
  | nil => rfl
  | cons c cs ih =>
    rw [List.map_cons, inTurn_cons, ih]
    rfl

/-- What shaping leaves depends only on which slots are listed: a shape reads its own slot and never a pulse. -/
theorem shapeSlots_congr {cs ds : List SlotIndex} (h : ∀ c, c ∈ cs ↔ c ∈ ds) (p : Params) (g : Regs) :
    shapeSlots p cs g = shapeSlots p ds g := by
  have hslots : (shapeSlots p cs g).slots = (shapeSlots p ds g).slots :=
    vector_ext fun d => by simp only [shapeSlots_slot, h]
  rw [shapeSlots_eq p cs, hslots, ← shapeSlots_eq]

/-- Settles O24: every order lists the same slots. -/
theorem shapeAllIsAnyOrderOfShapes : Obligations.ShapeAllIsAnyOrderOfShapes := by
  intro s cs hperm
  rw [inTurn_shape, shapeSlots_congr (fun c => hperm.mem_iff), exec_eq]
  rfl

/-! ### The SBUS map and its frame (R150 to R156) -/

/-- The map is never outside 172..1811 (R156). -/
theorem sbusMap_mem (p : Params) (a : Int) : 172 ≤ sbusMap p a ∧ sbusMap p a ≤ 1811 :=
  ⟨le_clamp _ _ _, clamp_le _ (by decide)⟩

/-- The map keeps order: so do the product, the rounding and the clamp (R156). -/
theorem sbusMap_mono (p : Params) {a b : Int} (h : a ≤ b) : sbusMap p a ≤ sbusMap p b := by
  have hspan : 0 < (p.pMax : Int) - p.pMin := by linarith [pMin_lt_pMax p]
  have hscaled : (a - p.pMin) * (sbusHi - sbusLo) ≤ (b - p.pMin) * (sbusHi - sbusLo) :=
    mul_le_mul_of_nonneg_right (by omega) (by decide)
  have hround : rndHu ((a - p.pMin) * (sbusHi - sbusLo)) ((p.pMax : Int) - p.pMin) ≤
      rndHu ((b - p.pMin) * (sbusHi - sbusLo)) ((p.pMax : Int) - p.pMin) :=
    fdiv_mono (by omega) (by omega)
  exact clamp_mono _ _ (by omega)

/-- The map where its quotient is a whole number `q` of the range: no rounding, no clamp. -/
theorem sbusMap_of_whole (p : Params) {a q : Int} (h0 : 0 ≤ q) (h1 : q ≤ 1639)
    (h : (a - p.pMin) * (sbusHi - sbusLo) = q * ((p.pMax : Int) - p.pMin)) : sbusMap p a = 172 + q := by
  have hspan : 0 < (p.pMax : Int) - p.pMin := by linarith [pMin_lt_pMax p]
  have hround : rndHu (q * ((p.pMax : Int) - p.pMin)) ((p.pMax : Int) - p.pMin) = q := by
    rw [← rndHaz_eq_rndHu (mul_nonneg h0 hspan.le) hspan, rndHaz_mul_self q hspan]
  rw [sbusMap, h, hround]
  exact clamp_of_mem (by rw [sbusLo]; omega) (by rw [sbusLo, sbusHi]; omega)

/-- Settles O33: at the limits the quotient is 0 and 1639, and clamp, rounding and product keep order. -/
theorem sbusMapIsBoundedAndMonotone : Obligations.SbusMapIsBoundedAndMonotone := by
  refine fun p => ⟨?low, ?high, fun a b => ⟨sbusMap_mem p a, sbusMap_mono p⟩⟩
  case low => exact sbusMap_of_whole p (q := 0) (by decide) (by decide) (by ring)
  case high => exact sbusMap_of_whole p (q := 1639) (by decide) (by decide) (by rw [sbusLo, sbusHi]; ring)

/-- SBUS_VAL holds the mapped value exactly (R150). -/
theorem toNat_sbusValue (p : Params) (g : Regs) (k : SlotIndex) :
    ((sbusValue p g k).toNat : Int) = sbusMap p (pulseOf g.slots[k]) := by
  obtain ⟨hlo, hhi⟩ := sbusMap_mem p (pulseOf g.slots[k])
  exact toNat_toField (by omega) (by omega)

/-- A data byte with its mask written out (R151). -/
theorem dataByte_eq_masked (x m : Nat) : dataByte x m = BitVec.ofNat 8 (x >>> (8 * m) &&& 0xFF) := by
  apply BitVec.eq_of_toNat_eq
  rw [dataByte, BitVec.toNat_ofNat, BitVec.toNat_ofNat, Nat.and_two_pow_sub_one_eq_mod _ 8, Nat.mod_mod]

/-- Settles O30: the values are those of the map, and the words give back the bytes of their frame. -/
theorem encSbusWritesTheFrame : Obligations.EncSbusWritesTheFrame := by
  intro s
  refine ⟨Vector.ofFn (sbusValue s.params s.regs), frameOf (Vector.ofFn (sbusValue s.params s.regs)),
    ?exec, fun k => ?value, fun j => ?byte⟩
  case exec => rw [exec_eq, effect, encodeSbus, writeSbusFrame, markSbusValid, State.withRegs]
  case value =>
    rw [ofFn_slot]
    exact toNat_sbusValue s.params s.regs k
  case byte =>
    rw [wordByte_frameOf _ j.isLt, frameByte, dataByte_eq_masked, packStream_eq_sum]

/-! ### The control commands (R170 to R172) -/

/-- Settles O34: `exec` answers the state it is given. -/
theorem nopChangesNothing : Obligations.NopChangesNothing := exec_eq .nop

/-- What CYCLE does: it shapes, and then encodes as MODE says, which shaping keeps (R22, R171). -/
theorem effect_cycle (p : Params) (g : Regs) :
    effect .cycle p g = if g.mode = 0 then encodePpm (shapeEvery p g) else encodeSbus p (shapeEvery p g) := by
  rw [effect, encodeSelected, shapeEvery_mode]

/-- SHAPE_ALL replaces the slots and nothing else. -/
theorem exists_shapeEvery_eq (p : Params) (g : Regs) :
    ∃ slots, shapeEvery p g = { g with slots := slots } := ⟨_, shapeEvery_eq p g⟩

/-- SHAPE_ALL keeps the channel count (R117). -/
theorem nchOf_shapeEvery (p : Params) (g : Regs) : nchOf (shapeEvery p g) = nchOf g := by
  rw [nchOf, shapeEvery_nch, nchOf]

/-- Settles O35: SHAPE_ALL keeps MODE and PPM_NCH, so CYCLE is ENC_PPM on the shaped state, which writes the frame. -/
theorem cycleInPpmModeShapesThenEncodes : Obligations.CycleInPpmModeShapesThenEncodes := by
  intro s hmode hlo hhi
  have hlegal : NchLegal (shapeEvery s.params s.regs) := by
    rw [NchLegal, nchOf_shapeEvery]
    exact ⟨hlo, hhi⟩
  refine ⟨_, _, exec_eq .shapeAll s, exec_eq .encPpm _,
    (exec_cycle_ppm hmode (exec_eq .shapeAll s)).trans (exec_eq .encPpm _), ?_⟩
  simp only [effect, State.withRegs_regs, encodePpm_legal hlegal]
  obtain ⟨slots, hslots⟩ := exists_shapeEvery_eq s.params s.regs
  rw [hslots]
  rfl

/-- With MODE = 1, CYCLE is ENC_SBUS on the state that SHAPE_ALL leaves (R171). -/
theorem exec_cycle_sbus {s t : State} (hmode : s.regs.mode ≠ 0) (ht : exec .shapeAll s = .next t) :
    exec .cycle s = exec .encSbus t := by
  rw [exec_eq, effect] at ht
  cases ht
  rw [exec_eq, exec_eq, effect_cycle, if_neg hmode, effect, State.withRegs_regs, State.withRegs_withRegs,
    State.withRegs_params]

/-- Settles O36: SHAPE_ALL keeps MODE, so CYCLE is ENC_SBUS on the shaped state, which writes the frame. -/
theorem cycleInSbusModeShapesThenEncodes : Obligations.CycleInSbusModeShapesThenEncodes := by
  intro s hmode
  have hsbus : s.regs.mode ≠ 0 := by simp [hmode]
  refine ⟨_, _, exec_eq .shapeAll s, exec_eq .encSbus _,
    (exec_cycle_sbus hsbus (exec_eq .shapeAll s)).trans (exec_eq .encSbus _), ?_⟩
  simp only [effect, State.withRegs_regs]
  obtain ⟨slots, hslots⟩ := exists_shapeEvery_eq s.params s.regs
  rw [hslots]
  rfl

/-! ### Reset (R172, R230) -/

/-- The reset value of each register, as a number: `P_MID` in CH_PULSE (R230). -/
def resetValue (p : Params) : Reg → Nat
  | .ppmNch => 8
  | .ppmGap => 300
  | .ppmMinActive => 100
  | .ppmFrame => 22500
  | .ppmSyncMin => 8000
  | .chPulse _ => pMid p
  | _ => 0

/-- `P_MID` fits a 16-bit field (R7). -/
theorem pMid_lt (p : Params) : pMid p < 2 ^ 16 := by
  have := pMin_add_pMax p
  have := pMin_lt_pMax p
  have := pMax_lt p
  omega

/-- Every slot is at its reset value after reset. -/
@[simp] theorem reset_slots (p : Params) (c : SlotIndex) : (Regs.reset p).slots[c] = Slot.reset p := by
  simp [Regs.reset]

/-- The output registers of every slot, channel and word are 0 after reset. -/
theorem reset_outputs (p : Params) :
    (∀ i : SlotIndex, (Regs.reset p).high[i] = 0) ∧ (∀ i : SlotIndex, (Regs.reset p).low[i] = 0) ∧
      (∀ k : SlotIndex, (Regs.reset p).sbusVal[k] = 0) ∧ ∀ w : Fin 7, (Regs.reset p).sbusFrame[w] = 0 := by
  simp [Regs.reset]

/-- Every register reads its reset value after reset (R230). -/
theorem toNat_readReg_reset (p : Params) (r : Reg) : (readReg r (Regs.reset p)).toNat = resetValue p r := by
  obtain ⟨hhigh, hlow, hval, hframe⟩ := reset_outputs p
  cases r with
  | chPulse c =>
    rw [readReg, reset_slots, toNat_setWidth_word _ (by decide), resetValue]
    exact Nat.mod_eq_of_lt (pMid_lt p)
  | status => rw [readReg, toNat_statusWord]; rfl
  | chIn c => rw [readReg, reset_slots]; rfl
  | chCfg c => rw [readReg, reset_slots, toNat_cfgWord]; rfl
  | chTrim c => rw [readReg, reset_slots]; rfl
  | ppmHigh i => rw [readReg, hhigh]; rfl
  | ppmLow i => rw [readReg, hlow]; rfl
  | sbusVal k => rw [readReg, hval]; rfl
  | sbusFrame w => rw [readReg, hframe]; rfl
  | _ => rfl

/-- The word a register reads as after reset is the one with its reset value. -/
theorem readReg_reset {p : Params} {r : Reg} {v : Word} (h : v.toNat = resetValue p r) : readReg r (Regs.reset p) = v :=
  BitVec.eq_of_toNat_eq ((toNat_readReg_reset p r).trans h.symm)

/-- A step of the `rst` input, as a clock edge or as a pulse, leaves every register at its reset value and nothing open at
the ports (R208, R230). -/
theorem step_rst {s : State} {rest : List HostOp} {op : HostOp} (hp : s.pending = op :: rest)
    (hop : (∃ p, op = .edge p ∧ p.rst = true) ∨ op = .rst none ∨ (∃ t : Txn, op = .rst (some t) ∧ t.problem = none)) :
    step s = .next (s.popped rest).resetInput := by
  rw [step, stepHost, hp]
  rcases hop with ⟨p, rfl, hrst⟩ | rfl | ⟨t, rfl, ht⟩
  · simp only [runOp, clockEdge, hrst, if_true]
  · rfl
  · simp only [runOp, ht]

/-- Settles O37: SOFT_RESET and the `rst` input both set `Regs.reset`, in which every register reads its reset value. -/
theorem resetSetsEveryRegister : Obligations.ResetSetsEveryRegister := by
  intro s
  refine ⟨Regs.reset s.params, exec_eq .softReset s, fun r => ?value, fun rest op hp hop => ?step⟩
  case value =>
    rw [toNat_readReg_reset]
    cases r <;> rfl
  case step => exact ⟨Port.idle s.port.count, rfl, rfl, step_rst hp hop⟩

/-- Settles O38: each listed word is the reset value of its register at the default build. -/
theorem resetStateHoldsTheResetValues : Obligations.ResetStateHoldsTheResetValues :=
  ⟨rfl, rfl, readReg_reset rfl, readReg_reset rfl, readReg_reset rfl, readReg_reset rfl, readReg_reset rfl,
    readReg_reset rfl, readReg_reset rfl, readReg_reset rfl, readReg_reset rfl, fun _ =>
      ⟨readReg_reset rfl, readReg_reset rfl, readReg_reset rfl, readReg_reset rfl, readReg_reset rfl, readReg_reset rfl,
        readReg_reset rfl, fun _ => readReg_reset rfl⟩⟩

end Sys2Proof.Machine
end

section
/-! PROOFS. What a step does to the registers, said once over all steps (`RegsStep`), and the invariant it keeps: the
registers are sound after reset, after every command, every recorded error and every store. -/

namespace Sys2Proof.Machine

/-! ### The registers after a step -/

/-- What a step that answers a next state has done to the registers: the `rst` input, no change, a command, an illegal
word, or a store at an address other than CMD. -/
inductive RegsStep (s : State) (g : Regs) : Prop where
  | reset (hr : s.resetsNext = true) (hp : s.performs = none) (e : g = Regs.reset s.params)
  | kept (hr : s.resetsNext = false) (hp : ∀ a v, s.performs ≠ some (.write a 4 v)) (hi : s.issues = none)
      (e : g = s.regs)
  | command (i : Instr) (hr : s.resetsNext = false) (hp : s.performs = some (.write 0x008 4 (encode i)))
      (hi : s.issues = some (encode i)) (e : g = effect i s.params s.regs)
  | illegal (w : Word) (hr : s.resetsNext = false) (hp : s.performs = some (.write 0x008 4 w))
      (hi : ∀ i, s.issues ≠ some (encode i)) (e : g = raiseError .illegalCmd s.regs)
  | store (a : Nat) (v : Word) (hr : s.resetsNext = false) (hp : s.performs = some (.write a 4 v))
      (hi : s.issues = none) (e : g = writeAddr a v s.regs)

/-- The command word a step issues is the data of the write it performs at CMD (R24). -/
theorem issues_of_write {s : State} {a n : Nat} {v : Word} (hp : s.performs = some (.write a n v)) :
    s.issues = if a = 0x008 then some v else none := by
  simp only [State.issues, hp]

/-- A step that performs no write issues no command word. -/
theorem issues_of_no_write {s : State} (hp : ∀ a n v, s.performs ≠ some (.write a n v)) : s.issues = none := by
  unfold State.issues
  split
  · exact absurd ‹_› (hp _ _ _)
  · rfl

/-- A write, command included, is a command, an illegal word or a store. -/
theorem regsStep_of_write {s : State} {a : Nat} {v : Word} (hr : s.resetsNext = false)
    (hp : s.performs = some (.write a 4 v)) : RegsStep s (writeEffect s.params a v s.regs) := by
  have hi := issues_of_write hp
  by_cases ha : a = 0x008
  · subst ha
    rw [if_pos rfl] at hi
    cases hdecode : decode v with
    | ok i =>
      obtain rfl := eq_encode_of_decode hdecode
      exact .command i hr hp hi (writeEffect_cmd_of_ok hdecode _ _)
    | error why =>
      refine .illegal v hr hp (fun i h => ?_) (writeEffect_cmd_of_error hdecode _ _)
      rw [hi, Option.some.injEq] at h
      rw [h, decode_encode] at hdecode
      cases hdecode
  · rw [if_neg ha] at hi
    exact .store a v hr hp hi (writeEffect_of_ne _ _ ha v)

/-- Every step that answers a next state keeps the parameters and does one of these things to the registers. -/
theorem regsStep_of_step {s t : State} (h : step s = .next t) : t.params = s.params ∧ RegsStep s t.regs := by
  rcases step_inversion h with ⟨hpending, rfl⟩ | ⟨op, rest, -, hleaves⟩
  · have hperforms : t.performs = none := by simp [State.performs, hpending]
    exact ⟨rfl, .kept (by simp [State.resetsNext, hpending]) (by simp [hperforms])
      (issues_of_no_write (by simp [hperforms])) rfl⟩
  · cases hleaves with
    | reset hr hp e => subst e; exact ⟨rfl, .reset hr hp rfl⟩
    | edge q hr hp e => subst e; exact ⟨rfl, .kept hr (by simp [hp]) (issues_of_no_write (by simp [hp])) rfl⟩
    | read q a hr hp e => subst e; exact ⟨rfl, .kept hr (by simp [hp]) (issues_of_no_write (by simp [hp])) rfl⟩
    | write q a v hr hp e => subst e; exact ⟨rfl, regsStep_of_write hr hp⟩

/-- Settles O46: every form of a step keeps the parameters. -/
theorem noStepChangesTheParameters : Obligations.NoStepChangesTheParameters :=
  fun _ _ h => (regsStep_of_step h).1

/-! ### The registers stay sound -/

/-- A channel count that ENC_PPM takes leaves PPM registers of one frame, with N as its slot count. -/
theorem HoldsPpmFrame.ppmSound {g t : Regs} (hf : HoldsPpmFrame g t) (hlegal : NchLegal g) : PpmSound t := by
  obtain ⟨hlo, hhi⟩ := hlegal
  refine ⟨hf.total.trans (sum_finRange _).symm, nchOf g, hhi, fun _ => hlo, fun i => ⟨hf.zero i, fun hi => ?_⟩⟩
  rw [hf.low i hi, hf.low 0 hlo]

/-- SBUS_VALID, the values of the map and their frame are sound (R155, R156, R158). -/
theorem encodeSbus_sbusSound (p : Params) (g : Regs) : SbusSound (encodeSbus p g) := by
  refine .inr ⟨encodeSbus_sbusValid p g, fun k => ?range, ?frame⟩
  case range =>
    have hvalue := toNat_sbusValue p g k
    have hmem := sbusMap_mem p (pulseOf g.slots[k])
    rw [encodeSbus_sbusVal, ofFn_slot]
    omega
  case frame => rw [encodeSbus_sbusFrame, encodeSbus_sbusVal]

/-- The codes of the errors are 1 and 2 (R203). -/
theorem errorCode_cases (e : ErrorCause) : errorCode e = 1 ∨ errorCode e = 2 := by
  cases e <;> decide

namespace Regs.Sound

variable {g g' : Regs} (h : g.Sound)

/-- The registers at their reset values are sound: no error, and a frame of no slots. -/
theorem reset (p : Params) : (Regs.reset p).Sound := by
  obtain ⟨hhigh, hlow, hval, hframe⟩ := reset_outputs p
  refine ⟨.inl ⟨rfl, rfl⟩, ⟨?total, 0, Nat.zero_le _, ?valid, ?pairs⟩, .inl ⟨rfl, hval, hframe⟩⟩
  case total => simp only [heldTotal, hhigh, hlow]; rfl
  case valid => exact fun hvalid => by cases hvalid
  case pairs => exact fun i => ⟨fun _ => ⟨hhigh i, hlow i⟩, fun hi => by omega⟩

include h

/-- Registers that keep the output registers and the valid flags, and keep or clear the error, stay sound. -/
theorem of_writeKeeps (hk : WriteKeeps g g') : g'.Sound := by
  obtain ⟨herror, hppm, hsbus⟩ := h
  refine ⟨?error, ?ppm, ?sbus⟩
  case error =>
    rcases hk.error with ⟨herr, hcode⟩ | hcleared
    · rwa [ErrorSound, herr, hcode]
    · exact .inl hcleared
  case ppm => rwa [PpmSound, heldTotal, hk.total, hk.ppmValid, hk.high, hk.low]
  case sbus => rwa [SbusSound, hk.sbusValid, hk.sbusVal, hk.sbusFrame]

/-- A recorded error is sound: it has a code that exists (R203). -/
theorem raiseError (e : ErrorCause) : (Machine.raiseError e g).Sound :=
  ⟨.inr ⟨rfl, errorCode_cases e⟩, h.ppm, h.sbus⟩

/-- SHAPE keeps the registers sound: it changes the slots only. -/
theorem shapeSlot (p : Params) (c : SlotIndex) : (Machine.shapeSlot p c g).Sound :=
  h.of_writeKeeps ⟨rfl, rfl, rfl, rfl, rfl, rfl, rfl, rfl, .inl ⟨rfl, rfl⟩⟩

/-- SHAPE_ALL keeps the registers sound: it changes the slots only. -/
theorem shapeEvery (p : Params) : (Machine.shapeEvery p g).Sound := by
  refine h.of_writeKeeps ?_
  constructor <;> simp

/-- ENC_PPM keeps the registers sound, at any channel count. -/
theorem encodePpm : (Machine.encodePpm g).Sound := by
  by_cases hlegal : NchLegal g
  · have hppm := (encodePpm_holdsPpmFrame hlegal).ppmSound hlegal
    refine ⟨?error, hppm, ?sbus⟩
    case error =>
      rw [encodePpm_legal hlegal, ErrorSound, markPpmValid_err, markPpmValid_errCode, writePpmFrame_err,
        writePpmFrame_errCode]
      exact h.error
    case sbus =>
      rw [SbusSound, encodePpm_sbusValid, encodePpm_sbusVal, encodePpm_sbusFrame]
      exact h.sbus
  · obtain ⟨herror, ⟨htotal, n, hn, -, hpairs⟩, hsbus⟩ := h
    rw [encodePpm_bad hlegal]
    exact ⟨.inr ⟨rfl, .inr rfl⟩, ⟨htotal, n, hn, (fun hvalid => by cases hvalid), hpairs⟩, hsbus⟩

/-- ENC_SBUS keeps the registers sound. -/
theorem encodeSbus (p : Params) : (Machine.encodeSbus p g).Sound := by
  refine ⟨?error, ?ppm, encodeSbus_sbusSound p g⟩
  case error =>
    rw [ErrorSound, encodeSbus_err, encodeSbus_errCode]
    exact h.error
  case ppm =>
    rw [PpmSound, heldTotal, encodeSbus_total, encodeSbus_ppmValid, encodeSbus_high, encodeSbus_low]
    exact h.ppm

/-- Every command keeps the registers sound. -/
theorem effect (i : Instr) (p : Params) : (Machine.effect i p g).Sound := by
  cases i with
  | nop => exact h
  | shape c => exact h.shapeSlot p c
  | shapeAll => exact h.shapeEvery p
  | encPpm => exact h.encodePpm
  | encSbus => exact h.encodeSbus p
  | cycle =>
    have hshaped := h.shapeEvery p
    rw [effect_cycle]
    split
    · exact hshaped.encodePpm
    · exact hshaped.encodeSbus p
  | softReset => exact reset p

end Regs.Sound

/-- Settles O44: each thing a step can do to the registers keeps them sound. -/
theorem everyStepKeepsTheRegistersSound : Obligations.EveryStepKeepsTheRegistersSound := by
  intro s t hs h
  obtain ⟨-, hregs⟩ := regsStep_of_step h
  cases hregs with
  | reset _ _ e => rw [e]; exact .reset s.params
  | kept _ _ _ e => rw [e]; exact hs
  | command i _ _ _ e => rw [e]; exact hs.effect i s.params
  | illegal w _ _ _ e => rw [e]; exact hs.raiseError .illegalCmd
  | store a v _ _ _ e => rw [e]; exact hs.of_writeKeeps (writeAddr_keeps a v s.regs)

/-- Settles O45: a machine after reset has its registers at their reset values. -/
theorem resetRegistersAreSound : Obligations.ResetRegistersAreSound := Regs.Sound.reset

end Sys2Proof.Machine
end

section
/-! PROOFS. Fields that no command reads (R20, R43, R206): the error and the output registers. Replacing such fields before
a command is replacing them after it, unless the command writes them over; that is proved once for any such replacement
(`Unread`), and from it follow what a command keeps and what it does not depend on. -/

namespace Sys2Proof.Machine

/-! ### Replacing fields that no command reads -/

/-- `f` replaces fields that no command reads and that, SOFT_RESET apart, only the encoders write: ENC_PPM where the
channel count meets `ppm`, and ENC_SBUS where `sbus` holds. -/
structure Unread (f : Regs → Regs) (ppm : Nat → Prop) (sbus : Prop) : Prop where
  mode : ∀ g, (f g).mode = g.mode
  shape : ∀ p c g, shapeSlot p c (f g) = f (shapeSlot p c g)
  ppmWrites : ∀ g, ppm (nchOf g) → encodePpm (f g) = encodePpm g
  ppmKeeps : ∀ g, ¬ppm (nchOf g) → encodePpm (f g) = f (encodePpm g)
  sbusWrites : ∀ p g, sbus → encodeSbus p (f g) = encodeSbus p g
  sbusKeeps : ∀ p g, ¬sbus → encodeSbus p (f g) = f (encodeSbus p g)

/-- The command writes the fields over: SOFT_RESET does, and ENC_PPM and ENC_SBUS where they write them, alone or in
CYCLE. -/
def Overwrites (ppm : Nat → Prop) (sbus : Prop) (i : Instr) (g : Regs) : Prop :=
  i = .softReset ∨ ((i = .encPpm ∨ (i = .cycle ∧ g.mode = 0)) ∧ ppm (nchOf g)) ∨
    ((i = .encSbus ∨ (i = .cycle ∧ g.mode = 1)) ∧ sbus)

/-- MODE is one bit (R22). -/
theorem mode_eq_one_iff (g : Regs) : g.mode = 1 ↔ g.mode ≠ 0 := by
  generalize g.mode = m
  revert m
  decide

namespace Unread

variable {f : Regs → Regs} {ppm : Nat → Prop} {sbus : Prop} (hf : Unread f ppm sbus)
include hf

/-- SHAPE_ALL does not see the replacement. -/
theorem shapeEvery (p : Params) (g : Regs) : Machine.shapeEvery p (f g) = f (Machine.shapeEvery p g) := by
  have hslots : ∀ cs, shapeSlots p cs (f g) = f (shapeSlots p cs g) := by
    intro cs
    induction cs generalizing g with
    | nil => rfl
    | cons c cs ih =>
      change shapeSlots p cs (shapeSlot p c (f g)) = f (shapeSlots p cs (shapeSlot p c g))
      rw [hf.shape, ih]
  exact hslots _

/-- A command that writes the fields over leaves no trace of the replacement. -/
theorem effect_of_overwrites {i : Instr} {g : Regs} (p : Params) (h : Overwrites ppm sbus i g) :
    effect i p (f g) = effect i p g := by
  rcases h with rfl | ⟨rfl | ⟨rfl, hmode⟩, hppm⟩ | ⟨rfl | ⟨rfl, hmode⟩, hsbus⟩
  · rfl
  · exact hf.ppmWrites g hppm
  · rw [← nchOf_shapeEvery p] at hppm
    rw [effect_cycle, effect_cycle, hf.mode, hf.shapeEvery, if_pos hmode, if_pos hmode, hf.ppmWrites _ hppm]
  · exact hf.sbusWrites p g hsbus
  · have hmode' := (mode_eq_one_iff g).mp hmode
    rw [effect_cycle, effect_cycle, hf.mode, hf.shapeEvery, if_neg hmode', if_neg hmode', hf.sbusWrites p _ hsbus]

/-- A command that does not write the fields over carries the replacement through. -/
theorem effect_of_not_overwrites {i : Instr} {g : Regs} (p : Params) (h : ¬Overwrites ppm sbus i g) :
    effect i p (f g) = f (effect i p g) := by
  simp only [Overwrites, not_or, not_and] at h
  obtain ⟨hreset, hppm, hsbus⟩ := h
  cases i with
  | nop => rfl
  | shape c => exact hf.shape p c g
  | shapeAll => exact hf.shapeEvery p g
  | encPpm => exact hf.ppmKeeps g (hppm (.inl rfl))
  | encSbus => exact hf.sbusKeeps p g (hsbus (.inl rfl))
  | cycle =>
    rw [← nchOf_shapeEvery p] at hppm
    rw [effect_cycle, effect_cycle, hf.mode, hf.shapeEvery]
    split
    case isTrue hmode => exact hf.ppmKeeps _ (hppm (.inr ⟨rfl, hmode⟩))
    case isFalse hmode => exact hf.sbusKeeps p _ (hsbus (.inr ⟨rfl, (mode_eq_one_iff g).mpr hmode⟩))
  | softReset => exact absurd rfl hreset

end Unread

/-! ### The error (R206) -/

/-- ERR and ERR_CODE replaced. -/
def withError (err : BitVec 1) (code : BitVec 4) (g : Regs) : Regs := { g with err := err, errCode := code }

/-- No command reads the error, and only a bad channel count writes it. -/
theorem unread_withError (err : BitVec 1) (code : BitVec 4) :
    Unread (withError err code) (fun n => ¬(1 ≤ n ∧ n ≤ 16)) False where
  mode _ := rfl
  shape _ _ _ := rfl
  ppmWrites g h := by rw [encodePpm_bad h, encodePpm_bad (g := withError err code g) h, withError]
  ppmKeeps g h := by
    rw [encodePpm_legal (not_not.mp h), encodePpm_legal (g := withError err code g) (not_not.mp h)]
    rfl
  sbusWrites _ _ h := h.elim
  sbusKeeps _ _ _ := rfl

/-- The command raises BAD_NCH, or sets the error by SOFT_RESET. -/
abbrev SetsError (i : Instr) (g : Regs) : Prop := Overwrites (fun n => ¬(1 ≤ n ∧ n ≤ 16)) False i g

/-- A command that sets the error, SOFT_RESET apart, records BAD_NCH (R202). -/
theorem effect_error_of_sets {i : Instr} {g : Regs} (p : Params) (h : SetsError i g) (hi : i ≠ .softReset) :
    (effect i p g).err = 1 ∧ (effect i p g).errCode = 2 := by
  rcases h with rfl | ⟨rfl | ⟨rfl, hmode⟩, hbad⟩ | ⟨-, hsbus⟩
  · exact absurd rfl hi
  · rw [effect, encodePpm_bad hbad]
    exact ⟨rfl, rfl⟩
  · have hbad' : ¬NchLegal (shapeEvery p g) := by rwa [NchLegal, nchOf_shapeEvery]
    rw [effect_cycle, if_pos hmode, encodePpm_bad hbad']
    exact ⟨rfl, rfl⟩
  · exact hsbus.elim

/-- A command that does not set the error keeps it. -/
theorem effect_error_of_keeps {i : Instr} {g : Regs} (p : Params) (h : ¬SetsError i g) :
    (effect i p g).err = g.err ∧ (effect i p g).errCode = g.errCode := by
  have hkeep : effect i p g = withError g.err g.errCode (effect i p g) :=
    (unread_withError g.err g.errCode).effect_of_not_overwrites p h
  rw [hkeep]
  exact ⟨rfl, rfl⟩

/-- Settles O39: the recorded error passes through a command that sets none, and leaves no trace in one that does. -/
theorem commandsRunNormallyWhileAnErrorIsRecorded : Obligations.CommandsRunNormallyWhileAnErrorIsRecorded := by
  intro i s code
  refine ⟨_, _, exec_eq i (s.withRegs (withError 0 0 s.regs)), exec_eq i (s.withRegs (withError 1 code s.regs)), ?_⟩
  simp only [State.withRegs_regs, State.withRegs_params, State.withRegs_withRegs]
  by_cases h : SetsError i s.regs
  · rw [(unread_withError _ _).effect_of_overwrites _ h, (unread_withError _ _).effect_of_overwrites _ h]
    refine ⟨rfl, fun hi => ?_⟩
    obtain ⟨herr, hcode⟩ := effect_error_of_sets s.params h hi
    exact ⟨herr, fun hzero => by simp [herr] at hzero, fun _ => rfl⟩
  · rw [(unread_withError _ _).effect_of_not_overwrites _ h, (unread_withError _ _).effect_of_not_overwrites _ h]
    exact ⟨rfl, fun _ => ⟨rfl, fun _ => rfl, fun hone => by simp [withError] at hone⟩⟩

/-! ### The output registers (R20, R43) -/

/-- The PPM output registers replaced by those of `o`. -/
def withPpm (o g : Regs) : Regs := { g with high := o.high, low := o.low, total := o.total, sync := o.sync }

/-- The SBUS output registers replaced by those of `o`. -/
def withSbus (o g : Regs) : Regs := { g with sbusVal := o.sbusVal, sbusFrame := o.sbusFrame }

/-- No command reads the PPM output registers, and only a successful ENC_PPM writes them. -/
theorem unread_withPpm (o : Regs) : Unread (withPpm o) (fun n => 1 ≤ n ∧ n ≤ 16) False where
  mode _ := rfl
  shape _ _ _ := rfl
  ppmWrites g h := by
    rw [encodePpm_legal h, encodePpm_legal (g := withPpm o g) h]
    rfl
  ppmKeeps g h := by
    rw [encodePpm_bad h, encodePpm_bad (g := withPpm o g) h]
    rfl
  sbusWrites _ _ h := h.elim
  sbusKeeps _ _ _ := rfl

/-- No command reads the SBUS output registers, and ENC_SBUS writes them. -/
theorem unread_withSbus (o : Regs) : Unread (withSbus o) (fun _ => False) True where
  mode _ := rfl
  shape _ _ _ := rfl
  ppmWrites _ h := h.elim
  ppmKeeps g _ := by
    by_cases h : NchLegal g
    · rw [encodePpm_legal h, encodePpm_legal (g := withSbus o g) h]
      rfl
    · rw [encodePpm_bad h, encodePpm_bad (g := withSbus o g) h]
      rfl
  sbusWrites _ _ _ := rfl
  sbusKeeps _ _ h := absurd trivial h

/-- The command writes the PPM output registers (R134, R172). -/
abbrev WritesPpm (i : Instr) (g : Regs) : Prop := Overwrites (fun n => 1 ≤ n ∧ n ≤ 16) False i g

/-- The command writes the SBUS output registers (R154, R172). -/
abbrev WritesSbus (i : Instr) (g : Regs) : Prop := Overwrites (fun _ => False) True i g

/-- The PPM output registers are equal. -/
abbrev SamePpm (g g' : Regs) : Prop :=
  g.high = g'.high ∧ g.low = g'.low ∧ g.total = g'.total ∧ g.sync = g'.sync

/-- The SBUS output registers are equal. -/
abbrev SameSbus (g g' : Regs) : Prop := g.sbusVal = g'.sbusVal ∧ g.sbusFrame = g'.sbusFrame

/-- A command that does not write the PPM output registers keeps them. -/
theorem samePpm_effect_of_not_writes {i : Instr} {g : Regs} (p : Params) (h : ¬WritesPpm i g) :
    SamePpm (effect i p g) g := by
  have hkeep : effect i p g = withPpm g (effect i p g) := (unread_withPpm g).effect_of_not_overwrites p h
  rw [hkeep]
  exact ⟨rfl, rfl, rfl, rfl⟩

/-- A command that does not write the SBUS output registers keeps them. -/
theorem sameSbus_effect_of_not_writes {i : Instr} {g : Regs} (p : Params) (h : ¬WritesSbus i g) :
    SameSbus (effect i p g) g := by
  have hkeep : effect i p g = withSbus g (effect i p g) := (unread_withSbus g).effect_of_not_overwrites p h
  rw [hkeep]
  exact ⟨rfl, rfl⟩

/-- Other contents of the output registers before a command come to other contents of them after it, where the command
does not write them, and to nothing where it does. -/
theorem effect_withOutputs (i : Instr) (p : Params) (o g : Regs) :
    effect i p g = withSbus (effect i p g) (withPpm (effect i p g) (effect i p (withSbus o (withPpm o g)))) ∧
      (WritesPpm i g → SamePpm (effect i p g) (effect i p (withSbus o (withPpm o g)))) ∧
      (WritesSbus i g → SameSbus (effect i p g) (effect i p (withSbus o (withPpm o g)))) := by
  by_cases hsbus : WritesSbus i (withPpm o g)
  · rw [(unread_withSbus o).effect_of_overwrites p hsbus]
    by_cases hppm : WritesPpm i g
    · rw [(unread_withPpm o).effect_of_overwrites p hppm]
      exact ⟨rfl, fun _ => ⟨rfl, rfl, rfl, rfl⟩, fun _ => ⟨rfl, rfl⟩⟩
    · rw [(unread_withPpm o).effect_of_not_overwrites p hppm]
      generalize effect i p g = after
      exact ⟨rfl, fun h => absurd h hppm, fun _ => ⟨rfl, rfl⟩⟩
  · rw [(unread_withSbus o).effect_of_not_overwrites p hsbus]
    by_cases hppm : WritesPpm i g
    · rw [(unread_withPpm o).effect_of_overwrites p hppm]
      generalize effect i p g = after
      exact ⟨rfl, fun _ => ⟨rfl, rfl, rfl, rfl⟩, fun h => absurd h hsbus⟩
    · rw [(unread_withPpm o).effect_of_not_overwrites p hppm]
      generalize effect i p g = after
      exact ⟨rfl, fun h => absurd h hppm, fun h => absurd h hsbus⟩

/-- When a command writes the PPM output registers, in the terms of R134, R171 and R172. -/
theorem writesPpm_iff (i : Instr) (g : Regs) : WritesPpm i g ↔
    i = .softReset ∨ ((i = .encPpm ∨ (i = .cycle ∧ g.mode = 0)) ∧ 1 ≤ g.nch.toNat ∧ g.nch.toNat ≤ 16) := by
  simp only [WritesPpm, Overwrites, nchOf, and_false, or_false]

/-- When a command writes the SBUS output registers, in the terms of R154, R171 and R172. -/
theorem writesSbus_iff (i : Instr) (g : Regs) : WritesSbus i g ↔
    i = .softReset ∨ i = .encSbus ∨ (i = .cycle ∧ g.mode = 1) := by
  simp only [WritesSbus, Overwrites, and_false, false_or, and_true]

/-- Settles O43: the second state is the first with other output registers, which the command carries through or writes
over, the PPM registers and the SBUS registers each for themselves. -/
theorem noCommandReadsAnOutputRegister : Obligations.NoCommandReadsAnOutputRegister := by
  intro i s high low total sync vals frame
  let o : Regs := { s.regs with
    high := high, low := low, total := total, sync := sync, sbusVal := vals, sbusFrame := frame }
  obtain ⟨hframe, hppm, hsbus⟩ := effect_withOutputs i s.params o s.regs
  refine ⟨_, _, exec_eq i s, exec_eq i (s.withRegs (withSbus o (withPpm o s.regs))), ?frame, ?ppm, ?sbus⟩
  case frame => exact congrArg s.withRegs hframe
  case ppm =>
    split
    case isTrue hw => exact hppm ((writesPpm_iff i s.regs).mpr hw)
    case isFalse hw =>
      have hkeeps : ¬WritesPpm i s.regs := mt (writesPpm_iff i s.regs).mp hw
      exact ⟨samePpm_effect_of_not_writes _ hkeeps,
        samePpm_effect_of_not_writes (g := withSbus o (withPpm o s.regs)) _ hkeeps⟩
  case sbus =>
    split
    case isTrue hw => exact hsbus ((writesSbus_iff i s.regs).mpr hw)
    case isFalse hw =>
      have hkeeps : ¬WritesSbus i s.regs := mt (writesSbus_iff i s.regs).mp hw
      exact ⟨sameSbus_effect_of_not_writes _ hkeeps,
        sameSbus_effect_of_not_writes (g := withSbus o (withPpm o s.regs)) _ hkeeps⟩

end Sys2Proof.Machine
end

section
/-! PROOFS. The flags of STATUS over every step (R136, R158, R207): what each command does to a flag, and then the cases of
`RegsStep`. -/

namespace Sys2Proof.Machine

/-! ### The error -/

/-- The step performs a write to STATUS with bit 0 set, or resets every register: the three ways of R207. -/
abbrev State.ClearsError (s : State) : Prop :=
  (∃ v : Word, s.performs = some (.write 0x004 4 v) ∧ v.toNat % 2 = 1) ∨ s.ResetsRegisters

/-- A write to a register other than STATUS keeps the error (R65). -/
theorem writeReg_error_of_ne {r : Reg} (h : r ≠ .status) (v : Word) (g : Regs) :
    (writeReg r v g).err = g.err ∧ (writeReg r v g).errCode = g.errCode := by
  cases r with
  | status => exact absurd rfl h
  | _ => exact ⟨rfl, rfl⟩

/-- A store at an address other than that of STATUS keeps the error (R65). -/
theorem writeAddr_error_of_ne {a : Nat} (h : a ≠ 0x004) (v : Word) (g : Regs) :
    (writeAddr a v g).err = g.err ∧ (writeAddr a v g).errCode = g.errCode := by
  unfold writeAddr
  split
  · rename_i r hr
    refine writeReg_error_of_ne ?_ v g
    rintro rfl
    exact h ((regAt_eq_some_iff a .status).mp hr)
  · exact ⟨rfl, rfl⟩

/-- Every step clears the error by one of the three ways, or by none of them leaves no recorded error cleared. -/
theorem step_clears_or_keeps_error {s t : State} (h : step s = .next t) :
    (s.ClearsError ∧ t.regs.err = 0 ∧ t.regs.errCode = 0) ∨
      (¬s.ClearsError ∧ (s.regs.err = 1 → t.regs.err = 1) ∧ (s.regs.errCode ≠ 0 → t.regs.errCode ≠ 0)) := by
  obtain ⟨-, hregs⟩ := regsStep_of_step h
  cases hregs with
  | reset hr _ e =>
    rw [e]
    exact .inl ⟨.inr (.inl hr), rfl, rfl⟩
  | kept hr hp hi e =>
    rw [e]
    exact .inr ⟨by simp [hr, hp, hi], id, id⟩
  | command i hr hp hi e =>
    rw [e]
    by_cases hreset : i = .softReset
    · subst hreset
      exact .inl ⟨.inr (.inr hi), rfl, rfl⟩
    · refine .inr ⟨by simp [hr, hp, hi, encode_injective.eq_iff, hreset], ?_⟩
      by_cases hsets : SetsError i s.regs
      · obtain ⟨herr, hcode⟩ := effect_error_of_sets s.params hsets hreset
        exact ⟨fun _ => herr, fun _ => by rw [hcode]; decide⟩
      · obtain ⟨herr, hcode⟩ := effect_error_of_keeps s.params hsets
        rw [herr, hcode]
        exact ⟨id, id⟩
  | illegal w hr hp hi e =>
    rw [e]
    exact .inr ⟨by simp [hr, hp, hi], fun _ => rfl, fun _ => (by decide : (1 : BitVec 4) ≠ 0)⟩
  | store a v hr hp hi e =>
    rw [e]
    by_cases ha : a = 0x004
    · subst ha
      have hstatus : writeAddr 0x004 v s.regs = if v.toNat % 2 = 1 then clearError s.regs else s.regs :=
        writeReg_status v s.regs
      rw [hstatus]
      split
      case isTrue hodd => exact .inl ⟨.inl ⟨v, hp, hodd⟩, rfl, rfl⟩
      case isFalse heven => exact .inr ⟨by simp [hr, hp, hi, heven], id, id⟩
    · obtain ⟨herr, hcode⟩ := writeAddr_error_of_ne ha v s.regs
      rw [herr, hcode]
      exact .inr ⟨by simp [hr, hp, hi, ha], id, id⟩

/-- Settles O40: the three ways clear both fields, and every other step leaves a recorded error recorded. -/
theorem errorIsClearedOnlyByItsThreeWays : Obligations.ErrorIsClearedOnlyByItsThreeWays := by
  intro s t h
  rcases step_clears_or_keeps_error h with ⟨hclears, herr, hcode⟩ | ⟨hnot, herr, hcode⟩
  · exact ⟨fun _ => ⟨herr, hcode⟩, fun _ => iff_of_true herr hclears, fun _ => iff_of_true hcode hclears⟩
  · exact ⟨fun hclears => absurd hclears hnot, fun hone => iff_of_false (by simp [herr hone]) hnot,
      fun hcoded => iff_of_false (hcode hcoded) hnot⟩

/-! ### The valid flags -/

/-- ENC_PPM sets PPM_VALID to whether it takes the channel count (R136). -/
theorem encodePpm_ppmValid (g : Regs) :
    (encodePpm g).ppmValid = if 1 ≤ g.nch.toNat ∧ g.nch.toNat ≤ 16 then 1 else 0 := by
  unfold encodePpm
  split
  case isTrue h => exact (if_pos h).symm
  case isFalse h => exact (if_neg h).symm

/-- What a command does to PPM_VALID (R136). -/
theorem effect_ppmValid (i : Instr) (p : Params) (g : Regs) :
    (effect i p g).ppmValid =
      if i = .softReset then 0
      else if i = .encPpm ∨ (i = .cycle ∧ g.mode = 0) then (if 1 ≤ g.nch.toNat ∧ g.nch.toNat ≤ 16 then 1 else 0)
      else g.ppmValid := by
  cases i with
  | nop => rfl
  | shape c => rfl
  | shapeAll => exact shapeEvery_ppmValid p g
  | encPpm => exact encodePpm_ppmValid g
  | encSbus => exact encodeSbus_ppmValid p g
  | cycle =>
    by_cases hmode : g.mode = 0#1
    · simp [effect_cycle, hmode, encodePpm_ppmValid]
    · simp [effect_cycle, hmode]
  | softReset => rfl

/-- What a command does to SBUS_VALID (R158). -/
theorem effect_sbusValid (i : Instr) (p : Params) (g : Regs) :
    (effect i p g).sbusValid =
      if i = .softReset then 0
      else if i = .encSbus ∨ (i = .cycle ∧ g.mode = 1) then 1
      else g.sbusValid := by
  cases i with
  | nop => rfl
  | shape c => rfl
  | shapeAll => exact shapeEvery_sbusValid p g
  | encPpm => exact encodePpm_sbusValid g
  | encSbus => exact encodeSbus_sbusValid p g
  | cycle =>
    by_cases hmode : g.mode = 0#1
    · simp [effect_cycle, hmode]
    · have hone : g.mode = 1#1 := (mode_eq_one_iff g).mpr hmode
      simp [effect_cycle, hone]
  | softReset => rfl

/-- Settles O41: a reset clears the flag, a command does what `effect_ppmValid` says, and every other step keeps it. -/
theorem ppmValidChangesOnlyAsItsRuleSays : Obligations.PpmValidChangesOnlyAsItsRuleSays := by
  intro s t h
  obtain ⟨-, hregs⟩ := regsStep_of_step h
  cases hregs with
  | reset hr _ e => rw [e, if_pos (.inl hr)]; rfl
  | kept hr _ hi e => simp [e, hr, hi]
  | command i hr _ hi e => simp [e, hr, hi, encode_injective.eq_iff, effect_ppmValid]
  | illegal w hr _ hi e => simp [e, hr, hi]
  | store a v hr _ hi e => simp [e, hr, hi, (writeAddr_keeps a v s.regs).ppmValid]

/-- Settles O42: a reset clears the flag, a command does what `effect_sbusValid` says, and every other step keeps it. -/
theorem sbusValidChangesOnlyAsItsRuleSays : Obligations.SbusValidChangesOnlyAsItsRuleSays := by
  intro s t h
  obtain ⟨-, hregs⟩ := regsStep_of_step h
  cases hregs with
  | reset hr _ e => rw [e, if_pos (.inl hr)]; rfl
  | kept hr _ hi e => simp [e, hr, hi]
  | command i hr _ hi e => simp [e, hr, hi, encode_injective.eq_iff, effect_sbusValid]
  | illegal w hr _ hi e => simp [e, hr, hi]
  | store a v hr _ hi e => simp [e, hr, hi, (writeAddr_keeps a v s.regs).sbusValid]

end Sys2Proof.Machine
end

section
/-! PROOFS. Whole runs (R67, R75, R244): a host program of whole operations, by induction on its list, and a transaction
driven at the ports, which opens, is held while the edges left count down, and closes with the effect of the whole one. -/

namespace Sys2Proof.Machine

/-! ### What a transaction keeps -/

@[simp] theorem txnEffect_params (t : Txn) (s : State) : (txnEffect t s).params = s.params := by cases t <;> rfl
@[simp] theorem txnEffect_pending (t : Txn) (s : State) : (txnEffect t s).pending = s.pending := by cases t <;> rfl
@[simp] theorem txnEffect_port (t : Txn) (s : State) : (txnEffect t s).port = s.port := by cases t <;> rfl

/-- What a transaction does to the registers does not depend on the host's lists or the ports. -/
theorem txnEffect_regs_congr (t : Txn) {s s' : State} (hparams : s.params = s'.params) (hregs : s.regs = s'.regs) :
    (txnEffect t s).regs = (txnEffect t s').regs := by
  cases t <;> simp only [txnEffect, State.logRead_regs, State.withRegs_regs, hparams, hregs]

/-- What a transaction returns does not depend on the rest of the host's list or on the ports. -/
theorem txnEffect_returned_congr (t : Txn) {s s' : State} (hregs : s.regs = s'.regs)
    (hreturned : s.returned = s'.returned) : (txnEffect t s).returned = (txnEffect t s').returned := by
  cases t <;> simp only [txnEffect, State.logRead_returned, State.withRegs_returned, hregs, hreturned]

/-! ### Programs of whole operations (R244) -/

/-- The reads of a list are those of its first operation and those of the rest. -/
theorem readsIn_cons (op : HostOp) (rest : List HostOp) : readsIn (op :: rest) = readsIn [op] + readsIn rest := by
  cases op with
  | txn t => cases t <;> simp [readsIn, add_comm]
  | rst o => simp [readsIn]
  | edge p => simp [readsIn]

/-- A transaction returns one value if it is a read, and none if it is a write. -/
theorem exists_returned_txnEffect (t : Txn) (s : State) :
    ∃ vs, (txnEffect t s).returned = s.returned ++ vs ∧ vs.length = readsIn [.txn t] := by
  cases t with
  | read a n => exact ⟨[readAddr a s.regs], rfl, rfl⟩
  | write a n v => exact ⟨[], (List.append_nil _).symm, rfl⟩

/-- A whole operation with nothing open at the ports is one step, which leaves nothing open and returns a value for a
read. -/
theorem step_whole {s : State} {op : HostOp} {rest : List HostOp} (hport : s.port.opened = none)
    (hp : s.pending = op :: rest) (hwhole : HostOp.whole op = true) :
    ∃ t, step s = .next t ∧ t.port.opened = none ∧ t.pending = rest ∧
      ∃ vs, t.returned = s.returned ++ vs ∧ vs.length = readsIn [op] := by
  cases op with
  | txn t =>
    have ht : t.problem = none := Option.isNone_iff_eq_none.mp hwhole
    exact ⟨_, step_txn hport hp ht, by rw [txnEffect_port]; exact hport, txnEffect_pending _ _,
      exists_returned_txnEffect t _⟩
  | rst o =>
    have ho : o = none ∨ ∃ t : Txn, o = some t ∧ t.problem = none := by
      cases o with
      | none => exact .inl rfl
      | some t => exact .inr ⟨t, rfl, Option.isNone_iff_eq_none.mp hwhole⟩
    refine ⟨_, step_rst hp (.inr ?_), rfl, rfl, [], (List.append_nil _).symm, rfl⟩
    simpa using ho
  | edge p => cases hwhole

/-- Settles O47: each operation of the list is one step (`step_whole`), so the list ends after as many. -/
theorem everyHostProgramEnds : Obligations.EveryHostProgramEnds := by
  rintro s ⟨hport, hwhole⟩
  generalize hp : s.pending = ops at *
  induction ops generalizing s with
  | nil => exact ⟨s, run_zero s, hp, [], (List.append_nil _).symm, rfl⟩
  | cons op rest ih =>
    obtain ⟨hop, hrest⟩ := List.forall_mem_cons.mp hwhole
    obtain ⟨t, hstep, htport, htpending, vs, hvs, hlen⟩ := step_whole hport hp hop
    obtain ⟨u, hrun, hupending, ws, hws, hlen'⟩ := ih t htport htpending hrest
    refine ⟨u, (run_step rest.length hstep).trans hrun, hupending, vs ++ ws, ?_, ?_⟩
    · rw [hws, hvs, List.append_assoc]
    · rw [List.length_append, hlen, hlen', readsIn_cons op rest]

/-! ### A transaction at the ports (R75) -/

/-- The transaction opened with the levels `p`, with `left` edges still to come before the one that closes it. -/
def openedWith (p : PortIn) (left : Nat) : OpenTxn := { we := p.we, wa := p.wa, wdata := p.wdata, left := left }

/-- The state while the transaction opened from `s` with the levels `p` is held: the registers as they were. -/
def heldState (s : State) (p : PortIn) (rest : List HostOp) (left : Nat) : State :=
  { s with
    pending := List.replicate (left + 1) (.edge p) ++ rest
    port := { opened := some (openedWith p left), count := s.port.count + 1, ready := false, rdata := none } }

/-- The state after the closing edge: the effect of the transaction, with the outputs of that edge. -/
def closedState (s : State) (p : PortIn) (rest : List HostOp) : State :=
  txnEffect (portTxn p.we p.wa p.wdata) ((s.popped rest).withPort
    (closePort (openedWith p 0) (readAddr (4 * p.wa.toNat) s.regs) (heldState s p rest 0).port))

section

variable {s : State} {p : PortIn} {rest : List HostOp}

/-- The levels a transaction was opened with are held levels (R75). -/
theorem inputsHeld_openedWith (hsel : p.sel = true) (left : Nat) : inputsHeld p (openedWith p left) = true := by
  simp [inputsHeld, openedWith, hsel]

/-- The first edge with `sel` at 1 opens the transaction (R75). -/
theorem step_opens (hport : s.port.opened = none) (hrst : p.rst = false) (hsel : p.sel = true)
    (hp : s.pending = List.replicate (portLatency s.port.count + 1) (.edge p) ++ rest) :
    step s = .next (heldState s p rest (Config.extraCycles s.port.count)) := by
  rw [List.replicate_succ, List.cons_append] at hp
  exact (step_edge hp).trans (clockEdge_opens hrst hport hsel)

/-- Before the closing edge, an edge at which the levels are held only counts down. -/
theorem step_heldState_succ (hrst : p.rst = false) (hsel : p.sel = true) (left : Nat) :
    step (heldState s p rest (left + 1)) = .next (heldState s p rest left) := by
  exact (step_edge rfl).trans (clockEdge_of_left_succ hrst rfl (inputsHeld_openedWith hsel _) rfl)

/-- The closing edge performs the transaction (R67, R75). -/
theorem step_heldState_zero (hrst : p.rst = false) (hsel : p.sel = true) :
    step (heldState s p rest 0) = .next (closedState s p rest) := by
  have hcloses := clockEdge_of_left_zero (s := (heldState s p rest 0).popped rest) hrst rfl
    (inputsHeld_openedWith hsel 0) rfl
  exact (step_edge rfl).trans (hcloses.trans (closeTxn_eq _ _))

/-- A run within the held edges only counts them down. -/
theorem run_heldState (hrst : p.rst = false) (hsel : p.sel = true) (n left : Nat) :
    Sys2Proof.core.run n (heldState s p rest (left + n)) = .next (heldState s p rest left) := by
  induction n with
  | zero => exact run_zero _
  | succ n ih => exact (run_step n (step_heldState_succ hrst hsel (left + n))).trans ih

/-- A run through the held edges and the closing edge performs the transaction. -/
theorem run_heldState_closed (hrst : p.rst = false) (hsel : p.sel = true) (left : Nat) :
    Sys2Proof.core.run (left + 1) (heldState s p rest left) = .next (closedState s p rest) := by
  induction left with
  | zero => exact run_one (step_heldState_zero hrst hsel)
  | succ left ih => exact (run_step (left + 1) (step_heldState_succ hrst hsel left)).trans ih

end

/-- The data of a read is on `rdata` at its closing edge (R75). -/
theorem closedState_rdata {p : PortIn} (hwe : p.we = false) (s : State) (rest : List HostOp) :
    (closedState s p rest).port.rdata = some (readAddr (4 * p.wa.toNat) s.regs) := by
  simp [closedState, closePort, openedWith, hwe]

/-- Settles O48: opening, holding and closing, with the whole effect at the closing edge. -/
theorem portTransactionIsTheWholeTransaction : Obligations.PortTransactionIsTheWholeTransaction := by
  intro s p rest hport hrst hsel hp
  have hopens := step_opens hport hrst hsel hp
  have hwhole := step_txn (s := s.popped (.txn (portTxn p.we p.wa p.wdata) :: rest)) hport rfl
    (portTxn_wellFormed p.we p.wa p.wdata)
  refine ⟨closedState s p rest, _, (run_step _ hopens).trans (run_heldState_closed hrst hsel _), hwhole,
    txnEffect_regs_congr _ rfl rfl, txnEffect_returned_congr _ rfl rfl, ?params, txnEffect_pending _ _, ?opened, ?ready,
    fun hwe => closedState_rdata hwe s rest, fun n hlo hhi => ?before⟩
  case params => rw [txnEffect_params, closedState, txnEffect_params]; rfl
  case opened => rw [closedState, txnEffect_port]; rfl
  case ready => rw [closedState, txnEffect_port]; rfl
  case before =>
    obtain ⟨k, rfl⟩ := Nat.exists_eq_add_of_le' hlo
    have hk : k ≤ Config.extraCycles s.port.count := Nat.le_of_succ_le_succ hhi
    obtain ⟨left, hleft⟩ := Nat.exists_eq_add_of_le' hk
    rw [hleft] at hopens
    exact ⟨heldState s p rest left, (run_step k hopens).trans (run_heldState hrst hsel k left), rfl, rfl, rfl⟩

end Sys2Proof.Machine
end
